-- ==== Sys2Proof/Word.lean ====
section
/-! DEFINITION. The word types of EPD-CORE, each at the one width the spec gives it (00_scope R7, 30_encoding R80, R87). -/

namespace Sys2Proof

/-- `CODE_W` = 8: a Command, a bus byte, a payload byte, an operation code (R7, R64, R81). -/
abbrev Byte := BitVec 8

/-- `COORD_W` = 16: `x`, `y`, `width`, `height` (R7, R150). -/
abbrev Coord := BitVec 16

/-- `LEN_W` = `DUR_W` = 32: a payload length, a repeat count, a duration in milliseconds, an operand latch
(R7, R26, R27, R35). -/
abbrev Word32 := BitVec 32

/-- `REQ_W` = 72: a request word `op ‖ B ‖ A` (R7, R80). -/
abbrev RequestWord := BitVec 72

/-- The 3-bit status of a response (R29, R87). -/
abbrev StatusBits := BitVec 3

/-- The 48-bit result of a response (R29, R87). -/
abbrev ResultWord := BitVec 48

/-- `RSP_W` = 51: a response word `status ‖ result` (R7, R87). -/
abbrev ResponseWord := BitVec 51

/-- The level of a one-bit line: `true` is 1, `false` is 0 (R21 to R24). -/
abbrev Level := Bool

end Sys2Proof
end

