-- ==== Sys2Proof/Config.lean ====
section
/-! DEFINITION. The fixed parameters of EPD-CORE (00_scope R7). `WAIT_LIMIT` is an input of the block and stands in State;
`PANEL_W` and `PANEL_H` are OPEN and are arguments of the claims that need them; the bus's bit order is behind the transmit
port and outside the block (R5 (d), R59). No opaque free value is needed: every value the spec leaves to the environment is
drawn from an input that State holds (R10). -/

namespace Sys2Proof.Config

/-- `CS_ACTIVE_LEVEL` = 0: the level of pin `cs` while chip-select is asserted (R7, R21, D7; log entry 24). -/
def csActiveLevel : Level := false

/-- The largest `PANEL_W` R7 admits. -/
def panelWidthMax : Nat := 2048

/-- The largest `PANEL_H` R7 admits. -/
def panelHeightMax : Nat := 65535

/-- The largest X byte a result field holds (R155). -/
def xByteMax : Nat := 255

/-- The largest Y value a result field holds (R155). -/
def yMax : Nat := 65535

end Sys2Proof.Config
end

