-- ==== Sys2Proof/Syntax.lean ====
section
/-! DEFINITION. The nine operations as data (30_encoding R81, R82), the request a host presents (R84), and the source's call
syntax as an abstract tree (R90). -/

namespace Sys2Proof

/-- A Rectangle in pixel coordinates (R150). -/
structure Rectangle where
  x      : Coord
  y      : Coord
  width  : Coord
  height : Coord
deriving DecidableEq, Repr

/-- The operation set of R3, one constructor per row of spec/opcode_table.json, with the operand fields of R82.
The payload of `sendData` and `sendCommandWithData` is not part of the word: it comes through the `PAY` port (R84). -/
inductive Instr where
  | sendCommand (code : Byte)
  | sendData (len : Word32)
  | sendCommandWithData (code : Byte) (len : Word32)
  | repeatByte (value : Byte) (count : Word32)
  | reset (durationLowMs durationAfterMs : Word32)
  | waitUntilIdle (busyActiveLow : Bool)
  | computeWindow (rect : Rectangle)
  | computeCounter (x y : Coord)
  | expand (byte : Byte)
deriving DecidableEq, Repr

/-- What the host presents for one operation: the 72-bit word on `REQ`, and the bytes it holds for `PAY` (R30, R31, R84). -/
structure Request where
  word    : RequestWord
  payload : List Byte
deriving DecidableEq, Repr

/-- A call in the source's syntax (R90): operands as plain numbers, a byte sequence as a list. The length operand is not
written: it is the number of elements of the byte sequence. -/
inductive Call where
  | sendCommand (code : Nat)
  | sendData (bytes : List Nat)
  | sendCommandWithData (code : Nat) (bytes : List Nat)
  | repeatByte (value count : Nat)
  | reset (durationLowMs durationAfterMs : Nat)
  | waitUntilIdle (busyActiveLow : Bool)
  | computeWindow (x y width height : Nat)
  | computeCounter (x y : Nat)
  | expand (byte : Nat)
deriving DecidableEq, Repr

end Sys2Proof
end

