-- ==== Sys2Proof/WellFormed.lean ====
section
/-! DEFINITION. Which calls and requests are well formed. An `Instr` has no check of its own: each of its operand fields has
exactly the width R82 gives it, so every term of `Instr` is a legal encoding (R111: "all 256 values are legal"). What can be
ill formed is a call whose numbers do not fit their fields (R7, R82, R84), and a payload whose length is not the word's
`len` (R84, R226). -/

namespace Sys2Proof

/-- A number fits an unsigned field of `width` bits (R7, R11, R82). -/
def fitsBits (width n : Nat) : Bool := decide (n < 2 ^ width)

/-- A byte sequence is one a frame can carry: bytes of 8 bits, at most `2^32 - 1` of them (R64, R112). -/
def fitsPayload (bytes : List Nat) : Bool := bytes.all (fitsBits 8) && fitsBits 32 bytes.length

/-- A call fits the request format: each operand fits its field of R82. -/
def Call.wellFormed : Call → Bool
  | .sendCommand code => fitsBits 8 code
  | .sendData bytes => fitsPayload bytes
  | .sendCommandWithData code bytes => fitsBits 8 code && fitsPayload bytes
  | .repeatByte value count => fitsBits 8 value && fitsBits 32 count
  | .reset low after => fitsBits 32 low && fitsBits 32 after
  | .waitUntilIdle _ => true
  | .computeWindow x y width height => fitsBits 16 x && fitsBits 16 y && fitsBits 16 width && fitsBits 16 height
  | .computeCounter x y => fitsBits 16 x && fitsBits 16 y
  | .expand byte => fitsBits 8 byte

/-- The number of payload bytes an operation carries (R84): `len` for the two operations with a payload, none otherwise. -/
def Instr.payloadLength : Instr → Nat
  | .sendCommand _ => 0
  | .sendData len => len.toNat
  | .sendCommandWithData _ len => len.toNat
  | .repeatByte _ _ => 0
  | .reset _ _ => 0
  | .waitUntilIdle _ => 0
  | .computeWindow _ => 0
  | .computeCounter _ _ => 0
  | .expand _ => 0

/-- The host's duty of R84 and R226: it holds exactly the payload bytes the operation carries. -/
def Instr.payloadFits (i : Instr) (payload : List Byte) : Bool := decide (payload.length = i.payloadLength)

end Sys2Proof
end

