-- ==== Sys2Proof/Decode.lean ====
section
/-! DEFINITION. The request word: its fields (30_encoding R80, R82), the opcode table (R81, R85), the decoder, total on all
72-bit words (R85, R86), the encoder written from the same tables, and the assembler of the source's call syntax, from text and to text (R90). -/

namespace Sys2Proof

/-- `W[71:64]`, the operation code (R80). -/
def fieldOp (w : RequestWord) : Byte := w.extractLsb' 64 8

/-- `W[63:32]`, the second operand word (R80). -/
def fieldB (w : RequestWord) : Word32 := w.extractLsb' 32 32

/-- `W[31:0]`, the first operand word (R80). -/
def fieldA (w : RequestWord) : Word32 := w.extractLsb' 0 32

/-- `A[7:0]`: `code`, `value` or `byte` (R82). -/
def fieldByte (w : RequestWord) : Byte := w.extractLsb' 0 8

/-- `A[0]`: `busyActiveLow`, 1 = true (R82). -/
def fieldFlag (w : RequestWord) : Bool := w.getLsbD 0

/-- `A[15:0]`: `x` (R82). -/
def fieldX (w : RequestWord) : Coord := w.extractLsb' 0 16

/-- `A[31:16]`: `y` (R82). -/
def fieldY (w : RequestWord) : Coord := w.extractLsb' 16 16

/-- `B[15:0]`: `width` (R82). -/
def fieldWidth (w : RequestWord) : Coord := w.extractLsb' 32 16

/-- `B[31:16]`: `height` (R82). -/
def fieldHeight (w : RequestWord) : Coord := w.extractLsb' 48 16

/-- One row of the opcode table: `mask` has a 1 in every `op` bit and every must-be-zero bit (R83, R85). -/
structure Row where
  mnemonic : String
  bits     : RequestWord
  mask     : RequestWord
deriving DecidableEq, Repr

/-- The complete test of R83: `W & mask == match`. -/
def Row.hits (r : Row) (w : RequestWord) : Bool := decide (w &&& r.mask = r.bits)

def rowSendCommand : Row := ⟨"sendCommand", 0x010000000000000000#72, 0xFFFFFFFFFFFFFFFF00#72⟩
def rowSendData : Row := ⟨"sendData", 0x020000000000000000#72, 0xFF00000000FFFFFFFF#72⟩
def rowSendCommandWithData : Row := ⟨"sendCommandWithData", 0x030000000000000000#72, 0xFF00000000FFFFFF00#72⟩
def rowRepeatByte : Row := ⟨"repeatByte", 0x040000000000000000#72, 0xFF00000000FFFFFF00#72⟩
def rowReset : Row := ⟨"reset", 0x050000000000000000#72, 0xFF0000000000000000#72⟩
def rowWaitUntilIdle : Row := ⟨"waitUntilIdle", 0x060000000000000000#72, 0xFFFFFFFFFFFFFFFFFE#72⟩
def rowComputeWindow : Row := ⟨"computeWindow", 0x070000000000000000#72, 0xFF0000000000000000#72⟩
def rowComputeCounter : Row := ⟨"computeCounter", 0x080000000000000000#72, 0xFFFFFFFFFF00000000#72⟩
def rowExpand : Row := ⟨"expand", 0x090000000000000000#72, 0xFFFFFFFFFFFFFFFF00#72⟩

/-- The nine rows of R85, in the order of R81. -/
def opcodeTable : List Row :=
  [rowSendCommand, rowSendData, rowSendCommandWithData, rowRepeatByte, rowReset, rowWaitUntilIdle, rowComputeWindow,
    rowComputeCounter, rowExpand]

/-- Why a word is `Reserved` (R86): its operation code is none of the nine, or a must-be-zero bit is set. -/
inductive ReservedWhy where
  | opcode (op : Byte)
  | mustBeZero (op : Byte)
deriving DecidableEq, Repr

/-- What the decoder answers for a word. -/
inductive Decoded where
  | instr (i : Instr)
  | reserved (why : ReservedWhy)
deriving DecidableEq, Repr

/-- R86's two cases told apart: codes 0x01 to 0x09 are operations, the others are reserved. -/
def reservedWhy (op : Byte) : ReservedWhy :=
  if 1 ≤ op.toNat ∧ op.toNat ≤ 9 then .mustBeZero op else .opcode op

/-- The decoder of R85, total on all `2^72` words. -/
def decode (w : RequestWord) : Decoded :=
  if rowSendCommand.hits w then .instr (.sendCommand (fieldByte w))
  else if rowSendData.hits w then .instr (.sendData (fieldB w))
  else if rowSendCommandWithData.hits w then .instr (.sendCommandWithData (fieldByte w) (fieldB w))
  else if rowRepeatByte.hits w then .instr (.repeatByte (fieldByte w) (fieldB w))
  else if rowReset.hits w then .instr (.reset (fieldA w) (fieldB w))
  else if rowWaitUntilIdle.hits w then .instr (.waitUntilIdle (fieldFlag w))
  else if rowComputeWindow.hits w then
    .instr (.computeWindow ⟨fieldX w, fieldY w, fieldWidth w, fieldHeight w⟩)
  else if rowComputeCounter.hits w then .instr (.computeCounter (fieldX w) (fieldY w))
  else if rowExpand.hits w then .instr (.expand (fieldByte w))
  else .reserved (reservedWhy (fieldOp w))

/-- The operation codes of R81. -/
def Instr.opcode : Instr → Byte
  | .sendCommand _ => 0x01#8
  | .sendData _ => 0x02#8
  | .sendCommandWithData _ _ => 0x03#8
  | .repeatByte _ _ => 0x04#8
  | .reset _ _ => 0x05#8
  | .waitUntilIdle _ => 0x06#8
  | .computeWindow _ => 0x07#8
  | .computeCounter _ _ => 0x08#8
  | .expand _ => 0x09#8

/-- The opcode-table row of an operation. -/
def Instr.row : Instr → Row
  | .sendCommand _ => rowSendCommand
  | .sendData _ => rowSendData
  | .sendCommandWithData _ _ => rowSendCommandWithData
  | .repeatByte _ _ => rowRepeatByte
  | .reset _ _ => rowReset
  | .waitUntilIdle _ => rowWaitUntilIdle
  | .computeWindow _ => rowComputeWindow
  | .computeCounter _ _ => rowComputeCounter
  | .expand _ => rowExpand

/-- The first operand word of R82; every bit it does not name is 0 (R83). -/
def Instr.operandA : Instr → Word32
  | .sendCommand code => code.setWidth 32
  | .sendData _ => 0
  | .sendCommandWithData code _ => code.setWidth 32
  | .repeatByte value _ => value.setWidth 32
  | .reset low _ => low
  | .waitUntilIdle flag => (BitVec.ofBool flag).setWidth 32
  | .computeWindow rect => rect.y ++ rect.x
  | .computeCounter x y => y ++ x
  | .expand byte => byte.setWidth 32

/-- The second operand word of R82; every bit it does not name is 0 (R83). -/
def Instr.operandB : Instr → Word32
  | .sendCommand _ => 0
  | .sendData len => len
  | .sendCommandWithData _ len => len
  | .repeatByte _ count => count
  | .reset _ after => after
  | .waitUntilIdle _ => 0
  | .computeWindow rect => rect.height ++ rect.width
  | .computeCounter _ _ => 0
  | .expand _ => 0

/-- A request word from its three fields (R80). -/
def packRequest (op : Byte) (b a : Word32) : RequestWord := op ++ b ++ a

/-- The encoder: the request word of an operation (R80 to R82). -/
def encode (i : Instr) : RequestWord := packRequest i.opcode i.operandB i.operandA

/-- The operation a call asks for (R82, R90); the length operand is the number of elements. -/
def Call.instr : Call → Instr
  | .sendCommand code => .sendCommand (BitVec.ofNat 8 code)
  | .sendData bytes => .sendData (BitVec.ofNat 32 bytes.length)
  | .sendCommandWithData code bytes => .sendCommandWithData (BitVec.ofNat 8 code) (BitVec.ofNat 32 bytes.length)
  | .repeatByte value count => .repeatByte (BitVec.ofNat 8 value) (BitVec.ofNat 32 count)
  | .reset low after => .reset (BitVec.ofNat 32 low) (BitVec.ofNat 32 after)
  | .waitUntilIdle flag => .waitUntilIdle flag
  | .computeWindow x y width height =>
    .computeWindow ⟨BitVec.ofNat 16 x, BitVec.ofNat 16 y, BitVec.ofNat 16 width, BitVec.ofNat 16 height⟩
  | .computeCounter x y => .computeCounter (BitVec.ofNat 16 x) (BitVec.ofNat 16 y)
  | .expand byte => .expand (BitVec.ofNat 8 byte)

/-- The byte sequence a call passes (R84). -/
def Call.bytes : Call → List Nat
  | .sendData bytes => bytes
  | .sendCommandWithData _ bytes => bytes
  | .sendCommand _ => []
  | .repeatByte _ _ => []
  | .reset _ _ => []
  | .waitUntilIdle _ => []
  | .computeWindow _ _ _ _ => []
  | .computeCounter _ _ => []
  | .expand _ => []

/-- The assembler: the request of a call that fits the format, none for one that does not. -/
def Call.assemble (c : Call) : Option Request :=
  if c.wellFormed then some ⟨encode c.instr, c.bytes.map (BitVec.ofNat 8)⟩ else none

/-- A program in the source's syntax is a list of calls, executed in order (R90): its request stream, none if a call does
not fit the format. -/
def assembleProgram (calls : List Call) : Option (List Request) := calls.mapM Call.assemble

/-- A number as R90 writes it, in decimal. -/
def numeralText (n : Nat) : List Char := Nat.toDigits 10 n

/-- The elements of a text list with a separator between them. -/
def joinText (separator : List Char) : List (List Char) → List Char
  | [] => []
  | [t] => t
  | t :: rest => t ++ separator ++ joinText separator rest

/-- A byte sequence in square brackets (R90). -/
def bytesText (bytes : List Nat) : List Char := ['['] ++ joinText [','] (bytes.map numeralText) ++ [']']

/-- Operands in parentheses (R90). -/
def parenText (operands : List (List Char)) : List Char := ['('] ++ joinText [',', ' '] operands ++ [')']

/-- A rectangle in braces with named fields (R90); characters 123 and 125 are the braces. -/
def rectangleText (x y width height : Nat) : List Char :=
  [Char.ofNat 123] ++
    joinText [','] ["x:".toList ++ numeralText x, "y:".toList ++ numeralText y, "width:".toList ++ numeralText width,
      "height:".toList ++ numeralText height] ++
    [Char.ofNat 125]

/-- The textual form of a call (R90): the mnemonic, then the operands in parentheses in the order of R82. -/
def Call.text : Call → List Char
  | .sendCommand code => "sendCommand".toList ++ parenText [numeralText code]
  | .sendData bytes => "sendData".toList ++ parenText [bytesText bytes]
  | .sendCommandWithData code bytes => "sendCommandWithData".toList ++ parenText [numeralText code, bytesText bytes]
  | .repeatByte value count => "repeatByte".toList ++ parenText [numeralText value, numeralText count]
  | .reset low after => "reset".toList ++ parenText [numeralText low, numeralText after]
  | .waitUntilIdle flag =>
    "waitUntilIdle".toList ++ parenText ["busyActiveLow=".toList ++ (if flag then "true".toList else "false".toList)]
  | .computeWindow x y width height => "computeWindow".toList ++ parenText [rectangleText x y width height]
  | .computeCounter x y => "computeCounter".toList ++ parenText [numeralText x, numeralText y]
  | .expand byte => "expand".toList ++ parenText [numeralText byte]

/-- The tokens of the call syntax (R90): a word, a number, or one mark. -/
inductive Token where
  | word (cs : List Char)
  | num (n : Nat)
  | mark (c : Char)
deriving DecidableEq, Repr

/-- The value of a digit in a base up to 16. -/
def digitValue (base : Nat) (c : Char) : Option Nat :=
  let v :=
    if '0' ≤ c ∧ c ≤ '9' then c.toNat - '0'.toNat
    else if 'a' ≤ c ∧ c ≤ 'f' then c.toNat - 'a'.toNat + 10
    else if 'A' ≤ c ∧ c ≤ 'F' then c.toNat - 'A'.toNat + 10
    else base
  if v < base then some v else none

/-- The value of a run of digits after a part already read. -/
def digitsValue (base acc : Nat) : List Char → Option Nat
  | [] => some acc
  | c :: cs =>
    match digitValue base c with
    | some d => digitsValue base (acc * base + d) cs
    | none => none

/-- A number in decimal or `0x` hexadecimal (R90). DESIGN CHOICE (log entry 25): the `x` is a small letter, hexadecimal digits are
of either case, and leading zeros are allowed. -/
def numeralValue : List Char → Option Nat
  | [] => none
  | '0' :: 'x' :: c :: cs => digitsValue 16 0 (c :: cs)
  | c :: cs => digitsValue 10 0 (c :: cs)

/-- The token of a run of letters and digits, given in reverse; none for an empty run. -/
def runToken (run : List Char) : List Token :=
  match run with
  | [] => []
  | _ =>
    match numeralValue run.reverse with
    | some n => [.num n]
    | none => [.word run.reverse]

/-- The tokens of a text; a line end is read as the separator `;` (R90). DESIGN CHOICE (log entry 25): the space alone is a
blank and may stand between any two tokens, and character 10 alone is a line end, so a tab or a carriage return is a mark that
no call has. -/
def lexText (run : List Char) : List Char → List Token
  | [] => runToken run
  | c :: cs =>
    if c.isAlphanum then lexText (c :: run) cs
    else
      runToken run ++
        (if c = ' ' then lexText [] cs else if c = Char.ofNat 10 then .mark ';' :: lexText [] cs else .mark c :: lexText [] cs)

/-- The elements of a byte sequence up to its closing bracket, and what follows. -/
def parseElements : List Token → Option (List Nat × List Token)
  | .num n :: .mark ']' :: rest => some ([n], rest)
  | .num n :: .mark ',' :: rest =>
    match parseElements rest with
    | some (ns, after) => some (n :: ns, after)
    | none => none
  | _ => none

/-- A byte sequence after its opening bracket, with the closing parenthesis of its call. -/
def parseBytes (ts : List Token) : Option (List Nat) :=
  if ts = [.mark ']', .mark ')'] then some []
  else
    match parseElements ts with
    | some (ns, [.mark ')']) => some ns
    | _ => none

/-- A call of one number. -/
def parseOne (name : List Char) : List Token → Option Call
  | [.num n, .mark ')'] =>
    if name = "sendCommand".toList then some (.sendCommand n) else if name = "expand".toList then some (.expand n) else none
  | _ => none

/-- A call of two numbers. -/
def parseTwo (name : List Char) : List Token → Option Call
  | [.num m, .mark ',', .num n, .mark ')'] =>
    if name = "repeatByte".toList then some (.repeatByte m n)
    else if name = "reset".toList then some (.reset m n)
    else if name = "computeCounter".toList then some (.computeCounter m n)
    else none
  | _ => none

/-- A call with a byte sequence. -/
def parsePayload (name : List Char) : List Token → Option Call
  | .mark '[' :: rest => if name = "sendData".toList then (parseBytes rest).map .sendData else none
  | .num code :: .mark ',' :: .mark '[' :: rest =>
    if name = "sendCommandWithData".toList then (parseBytes rest).map (.sendCommandWithData code) else none
  | _ => none

/-- The call with a polarity flag. -/
def parseFlag (name : List Char) (ts : List Token) : Option Call :=
  if name = "waitUntilIdle".toList then
    if ts = [.word "busyActiveLow".toList, .mark '=', .word "true".toList, .mark ')'] then some (.waitUntilIdle true)
    else if ts = [.word "busyActiveLow".toList, .mark '=', .word "false".toList, .mark ')'] then some (.waitUntilIdle false)
    else none
  else none

/-- The call with a rectangle, its four named fields in the order of R90's example. DESIGN CHOICE (log entry 25): no other order
is read. -/
def parseRectangle (name : List Char) : List Token → Option Call
  | [.mark b, .word nx, .mark ':', .num x, .mark ',', .word ny, .mark ':', .num y, .mark ',', .word nw, .mark ':', .num w,
      .mark ',', .word nh, .mark ':', .num h, .mark e, .mark ')'] =>
    if name = "computeWindow".toList ∧ b = Char.ofNat 123 ∧ e = Char.ofNat 125 ∧ nx = "x".toList ∧ ny = "y".toList ∧
        nw = "width".toList ∧ nh = "height".toList then
      some (.computeWindow x y w h)
    else none
  | _ => none

/-- One call (R90). -/
def parseCall : List Token → Option Call
  | .word name :: .mark '(' :: rest =>
    (parseOne name rest).orElse fun _ => (parseTwo name rest).orElse fun _ => (parsePayload name rest).orElse fun _ =>
      (parseFlag name rest).orElse fun _ => parseRectangle name rest
  | _ => none

/-- The tokens between separators. -/
def splitCalls (current : List Token) : List Token → List (List Token)
  | [] => [current]
  | .mark ';' :: rest => current :: splitCalls [] rest
  | t :: rest => splitCalls (current ++ [t]) rest

/-- A program text: calls separated by `;` or line ends (R90); none where the text is no list of calls. DESIGN CHOICE (log
entry 25): empty calls between separators, and at either end of the text, are skipped. -/
def parseProgram (text : List Char) : Option (List Call) :=
  ((splitCalls [] (lexText [] text)).filter fun ts => decide (ts ≠ [])).mapM parseCall

/-- The instruction the decoder reads from a word numbered as spec/opcode_table.json numbers it. The whole request is one
72-bit word, so bit `k` of `w` is `W[k]`; `nbits` is its width as the table gives it, and `w` has no bit at or above it. -/
def decodeTableWord (_nbits w : Nat) : Option Instr :=
  match decode (BitVec.ofNat 72 w) with
  | .instr i => some i
  | .reserved _ => none

end Sys2Proof
end

