-- ==== Sys2Proof/Machine/State.lean ====
section
/-! DEFINITION. The state of EPD-CORE (10_state): the block's own state, which R41 lists whole; the inputs of its ports, as
plain data (R10: draws the block does not control); and the trace of the events that have passed the ports (R13). The block has
no memory (R50, R55), so no list of cells stands here (log entry 14). -/

namespace Sys2Proof.Machine

/-- The four errors and `OK` (R88, R180). -/
inductive Status where
  | ok
  | busError
  | invalidWindow
  | timeout
  | illegalRequest
deriving DecidableEq, Repr

/-- The answer of the bus primitive to one byte (R34). -/
inductive TxAnswer where
  | ok
  | fail
deriving DecidableEq, Repr

/-- What the delay primitive does while the sequencer waits for it (R35): `completed`, after at least the time asked for, or
`pending`, not yet (R231: that it eventually completes is an assumption about the environment). -/
inductive DelayReply where
  | completed
  | pending
deriving DecidableEq, Repr

/-- The events of R13. A line-write event is emitted on every write, of the same level too. -/
inductive Event where
  /-- `Req(w)`: a request word accepted. -/
  | req (word : RequestWord)
  /-- `PayRd(i, b)`: payload byte `i` read with value `b`. -/
  | payRd (index : Word32) (byte : Byte)
  /-- `LineDC(l)`. -/
  | lineDC (level : Level)
  /-- `LineCS(assert)` is `true`, `LineCS(release)` is `false`. -/
  | lineCS (asserted : Bool)
  /-- `LineRST(l)`. -/
  | lineRST (level : Level)
  /-- `Tx(b, r)`: a byte handed to the bus primitive, which answered `r`. -/
  | tx (byte : Byte) (answer : TxAnswer)
  /-- `Dly(n)`: a delay of `n` milliseconds requested and completed. -/
  | dly (ms : Word32)
  /-- `Smp(l)`: the busy pin sampled at level `l`. -/
  | smp (level : Level)
  /-- `Rsp(st, res)`: the response delivered. -/
  | rsp (status : StatusBits) (result : ResultWord)
deriving DecidableEq, Repr

/-- The values of `PH` (R25): `IDLE`, the step labels of the nine operations, qualified by the operation, and the labels of the
abort sequence (R187). The S3 of `sendData` and the S5 of `sendCommandWithData` emit two events an iteration and are split
into two micro-steps in that order, as R112 allows; the second one's label carries the byte read (log entry 2). `abortA1`
carries the error being raised, until A1 records it in `ST`. -/
inductive Phase where
  | idle
  | sendCommandS1 | sendCommandS2 | sendCommandS3 | sendCommandS4 | sendCommandS5
  | sendDataS1 | sendDataS2 | sendDataS3 | sendDataS3Tx (byte : Byte) | sendDataS4 | sendDataS5
  | sendCommandWithDataS1 | sendCommandWithDataS2 | sendCommandWithDataS3 | sendCommandWithDataS4
  | sendCommandWithDataS5 | sendCommandWithDataS5Tx (byte : Byte) | sendCommandWithDataS6 | sendCommandWithDataS7
  | repeatByteS1 | repeatByteS2 | repeatByteS3 | repeatByteS4 | repeatByteS5
  | resetS1 | resetS2 | resetS3 | resetS4 | resetS5
  | waitUntilIdleS1 | waitUntilIdleS2 | waitUntilIdleS3
  | computeWindowS1 | computeWindowS2
  | computeCounterS1 | computeCounterS2
  | expandS1 | expandS2
  | abortA1 (error : Status) | abortA2 | abortA3
deriving DecidableEq, Repr

/-- The answers an environment will give, in order: those of `script` first, then `rest` for ever (R10; log entry 4). -/
structure Draws (α : Type) where
  script : List α
  rest   : α
deriving DecidableEq, Repr

/-- The state. The first eleven fields are the tuple of R41. -/
structure State where
  /-- `CSEL`, 1 bit: `true` is asserted (R21). -/
  csel : Bool
  /-- `DC`, 1 bit: the level of pin `dc` (R22). -/
  dc : Level
  /-- `RST`, 1 bit: the level of pin `rst` (R23). -/
  rst : Level
  /-- `PH`, the sequencer phase (R25). -/
  ph : Phase
  /-- `OPR`, the operation code latch (R26). -/
  opr : Byte
  /-- `A`, the first operand latch (R26). -/
  a : Word32
  /-- `B`, the second operand latch (R26). -/
  b : Word32
  /-- `IDX`, the index of the next data byte (R27). -/
  idx : Word32
  /-- `NPOLL`, the busy samples of this `waitUntilIdle` that read busy (R28). -/
  npoll : Word32
  /-- `ST`, the status being assembled (R29). -/
  st : StatusBits
  /-- `RES`, the result being assembled (R29). -/
  res : ResultWord
  /-- The configuration input `WAIT_LIMIT`: constant during a run, no operation writes it (R36). -/
  waitLimit : Word32
  /-- The host's request stream: the requests not yet accepted, the one on port `REQ` first (R10, R30). It is the host's
  program and no queue of the block. -/
  req : List Request
  /-- Port `PAY`: the bytes the host holds for the request in progress (R31, R52). -/
  pay : List Byte
  /-- Port `TX`: the answers of the bus primitive, one an attempt; `none` is "not answered yet" (R34, R231). -/
  bus : Draws (Option TxAnswer)
  /-- Pin `busy`: the level at each coming sample (R24). -/
  busy : Draws Level
  /-- Port `DLY`: the delay primitive's replies (R35). -/
  dly : Draws DelayReply
  /-- Input `hrst`: its level at each coming step, `true` asserted; deasserted after the last (R37, R210). -/
  hrst : List Bool
  /-- The events so far, NEWEST FIRST (R13): the model's record of what has passed the ports; no step reads it. -/
  log : List Event
deriving DecidableEq, Repr

/-- The trace of R13: the events in the order they were emitted. -/
def State.trace (s : State) : List Event := s.log.reverse

/-- Why the machine stops with a fault. -/
inductive Fault where
  /-- Raised by the sequencer when `PH` is a step label of one operation while the latched request decodes to another
  operation or to none. No state that reset and steps reach is so (Obligations.InvariantRulesOutFault). SAFE: the model stops
  where the spec says nothing (log entry 15). -/
  | phaseMismatch
deriving DecidableEq, Repr

/-- Why the model gives a step no meaning. -/
inductive Refusal where
  /-- Raised by an arm of `exec` for an instruction with no meaning yet. SAFE. No arm raises it. -/
  | notModelled (mnemonic : String)
  /-- Raised by `computeWindow` and `computeCounter` for operands whose result does not fit its fields, to which the spec gives
  no meaning (R155, U6). SAFE: the model stops where the spec defines nothing (log entry 12). -/
  | resultOutOfRange
  /-- Raised by `sendData` and `sendCommandWithData` when the host holds no payload byte at the index read, a read the spec
  gives no meaning (R226, U7). SAFE: the model stops where the spec defines nothing (log entry 13). -/
  | payloadMissing
deriving DecidableEq, Repr

/-- The machine after block reset (R40, R210). The spec leaves `OPR`, `A`, `B`, `IDX`, `NPOLL`, `ST` and `RES` unspecified:
zero is the model's (log entry 8, UNSAFE). The inputs have no reset value: no request presented, every bus answer `ok`, the busy
pin low, every delay completing, `hrst` deasserted and `WAIT_LIMIT` 0 are the model's (log entries 7 and 9, UNSAFE). -/
def State.reset : State where
  csel := false
  dc := false
  rst := true
  ph := .idle
  opr := 0
  a := 0
  b := 0
  idx := 0
  npoll := 0
  st := 0
  res := 0
  waitLimit := 0
  req := []
  pay := []
  bus := ⟨[], some .ok⟩
  busy := ⟨[], false⟩
  dly := ⟨[], .completed⟩
  hrst := []
  log := []

end Sys2Proof.Machine
end

