-- ==== Sys2Proof/Machine/Flags.lean ====
section
/-! DEFINITION. The condition computations: BusyState, which is never stored (R24, R120), the status codes (R88), the response
word (R87), and the pins as views of the latches (R21 to R23, R33). -/

namespace Sys2Proof.Machine

/-- BusyState of a sampled level under the polarity flag `busyActiveLow` (R116, R120). -/
def busyState (busyActiveLow : Bool) (level : Level) : Bool :=
  if busyActiveLow then decide (level = false) else decide (level = true)

/-- The next value of `NPOLL` after a busy sample: it saturates at `2^32 - 1` (R28, R116). -/
def pollCount (n : Word32) : Word32 := if n = BitVec.allOnes 32 then n else n + 1

/-- `WAIT_LIMIT != 0 and NPOLL = WAIT_LIMIT` (R116). -/
def limitReached (waitLimit npoll : Word32) : Bool := decide (waitLimit ≠ 0 ∧ npoll = waitLimit)

/-- The status codes of R88; 5 to 7 belong to no status. -/
def statusCode : Status → StatusBits
  | .ok => 0
  | .busError => 1
  | .invalidWindow => 2
  | .timeout => 3
  | .illegalRequest => 4

/-- The response word `Q` = `status ‖ result` (R87). -/
def responseWord (status : StatusBits) (result : ResultWord) : ResponseWord := status ++ result

/-- The response word an event of the trace delivered to the host, if it is a response (R32, R87). -/
def responseOf : Event → Option ResponseWord
  | .rsp status result => some (responseWord status result)
  | .req _ => none
  | .payRd _ _ => none
  | .lineDC _ => none
  | .lineCS _ => none
  | .lineRST _ => none
  | .tx _ _ => none
  | .dly _ => none
  | .smp _ => none

/-- The response words delivered so far, oldest first (port `RSP`, R32). -/
def responses (s : State) : List ResponseWord := s.trace.filterMap responseOf

/-- The level of pin `cs`: `CS_ACTIVE_LEVEL` while chip-select is asserted, the opposite level otherwise (R21). -/
def csPin (s : State) : Level := if s.csel then Config.csActiveLevel else !Config.csActiveLevel

/-- The level of pin `dc` (R22). -/
def dcPin (s : State) : Level := s.dc

/-- The level of pin `rst` (R23). -/
def rstPin (s : State) : Level := s.rst

end Sys2Proof.Machine
end

