-- ==== Sys2Proof/Machine/Operands.lean ====
section
/-! DEFINITION. The operand forms: the latched request word (R26), payload bytes by index (R31, R52), the byte and pixel
arithmetic of AddressWindow (R151, R154, R155) with its result packing (R89), and the bit expansion (R170, R171, R174). -/

namespace Sys2Proof.Machine

/-- The request word the operand latches hold (R26, R80). -/
def latchedWord (s : State) : RequestWord := packRequest s.opr s.b s.a

/-- `PayRead(i)`: byte `i` of the payload, none where the host holds no such byte (R31, U7). -/
def payRead (i : Word32) (s : State) : Option Byte := s.pay[i.toNat]?

/-- The low byte of a 16-bit value, `v[7:0]` (R56). -/
def lowByte (v : Coord) : Byte := v.extractLsb' 0 8

/-- The high byte of a 16-bit value, `v[15:8]` (R56). -/
def highByte (v : Coord) : Byte := v.extractLsb' 8 8

/-- `xs <- x >> 3`, on integers (R151). -/
def windowXStart (r : Rectangle) : Nat := r.x.toNat >>> 3

/-- `xe <- (x + width - 1) >> 3`, on integers (R151). -/
def windowXEnd (r : Rectangle) : Nat := (r.x.toNat + r.width.toNat - 1) >>> 3

/-- `ys <- y` (R151). -/
def windowYStart (r : Rectangle) : Nat := r.y.toNat

/-- `ye <- y + height`, on integers: not `y + height - 1` (R151, D18, C5). -/
def windowYEnd (r : Rectangle) : Nat := r.y.toNat + r.height.toNat

/-- The rectangle is degenerate: `width = 0 or height = 0` (R151, R182). -/
def windowDegenerate (r : Rectangle) : Bool := decide (r.width = 0 ∨ r.height = 0)

/-- `xe <= 255 and ye <= 65535` (R151, R155). -/
def windowFits (r : Rectangle) : Bool := decide (windowXEnd r ≤ Config.xByteMax ∧ windowYEnd r ≤ Config.yMax)

/-- `RES <- yEnd ‖ yStart ‖ xEndByte ‖ xStartByte` (R89, R151). -/
def windowResult (r : Rectangle) : ResultWord :=
  BitVec.ofNat 16 (windowYEnd r) ++ BitVec.ofNat 16 (windowYStart r) ++ BitVec.ofNat 8 (windowXEnd r) ++
    BitVec.ofNat 8 (windowXStart r)

/-- `xb <- x >> 3` (R154). -/
def counterX (x : Coord) : Nat := x.toNat >>> 3

/-- `xb <= 255` (R154, R155). -/
def counterFits (x : Coord) : Bool := decide (counterX x ≤ Config.xByteMax)

/-- `RES <- zext_48(yHigh ‖ yLow ‖ xByte)` (R89, R154). -/
def counterResult (x y : Coord) : ResultWord :=
  (highByte y ++ lowByte y ++ BitVec.ofNat 8 (counterX x)).setWidth 48

/-- The loop of R170 over input bits `0` to `n - 1`: input bit `i` sets output bits `2i` and `2i + 1`. -/
def expandBits (byte : Byte) : Nat → BitVec 16
  | 0 => 0
  | n + 1 => expandBits byte n ||| (if byte.getLsbD n then 3#16 <<< (2 * n) else 0)

/-- The 16-bit value `v` of `expand` (R170). -/
def expandValue (byte : Byte) : BitVec 16 := expandBits byte 8

/-- `RES <- zext_48(v)` (R89, R170). -/
def expandResult (byte : Byte) : ResultWord := (expandValue byte).setWidth 48

/-- The mask algorithm of R171 (its constants are general knowledge, G2: PRESUMED, log entry 23); the machine uses R170's
definition, and Obligations.MaskAlgorithmExpands states that the two agree. -/
def expandByMasks (byte : Byte) : BitVec 16 :=
  let t0 : BitVec 16 := byte.setWidth 16
  let t1 := (t0 ||| (t0 <<< 4)) &&& 0x0F0F#16
  let t2 := (t1 ||| (t1 <<< 2)) &&& 0x3333#16
  let t3 := (t2 ||| (t2 <<< 1)) &&& 0x5555#16
  t3 ||| (t3 <<< 1)

/-- The nibble table of R174. -/
def nibbleTable : List Byte :=
  [0x00#8, 0x03#8, 0x0C#8, 0x0F#8, 0x30#8, 0x33#8, 0x3C#8, 0x3F#8] ++
    [0xC0#8, 0xC3#8, 0xCC#8, 0xCF#8, 0xF0#8, 0xF3#8, 0xFC#8, 0xFF#8]

/-- `e(n)` (R174). -/
def nibbleExpansion (n : BitVec 4) : Byte := nibbleTable.getD n.toNat 0

/-- The first transmitted byte of an expanded value, `v[15:8]` (R57, R170). -/
def firstByte (v : BitVec 16) : Byte := highByte v

/-- The second transmitted byte of an expanded value, `v[7:0]` (R57, R170). -/
def secondByte (v : BitVec 16) : Byte := lowByte v

end Sys2Proof.Machine
end

