-- ==== Sys2Proof/Machine/Ops.lean ====
section
/-! DEFINITION. The named operations over the state that the meanings of all nine operations share: the primitives of R12, the
acceptance of a request (R26, R80), the abort sequence (R187), and block reset (R210, R211). -/

namespace Sys2Proof.Machine

/-- The next draw (R10). -/
def Draws.head {α : Type} (d : Draws α) : α :=
  match d.script with
  | [] => d.rest
  | x :: _ => x

/-- The draws after the next one. -/
def Draws.tail {α : Type} (d : Draws α) : Draws α := { d with script := d.script.tail }

/-- The draws after the next `n`. -/
def Draws.drop {α : Type} (d : Draws α) (n : Nat) : Draws α := { d with script := d.script.drop n }

/-- `PH <- label` (R12). -/
def goto (label : Phase) (s : State) : State := { s with ph := label }

/-- Emit one event (R13). -/
def emit (e : Event) (s : State) : State := { s with log := e :: s.log }

/-- `ST <- OK; RES <- 0`, the start of an operation (R29, R111 to R116). -/
def startOperation (s : State) : State := { s with st := statusCode .ok, res := 0 }

/-- `RES <- v` (R29). -/
def setResult (v : ResultWord) (s : State) : State := { s with res := v }

/-- `DC <- l`, emits `LineDC(l)` (R22, R53). -/
def writeDC (l : Level) (s : State) : State := emit (.lineDC l) { s with dc := l }

/-- `CSEL <- l`, emits `LineCS(assert)` or `LineCS(release)` (R21, R53). -/
def writeCS (l : Bool) (s : State) : State := emit (.lineCS l) { s with csel := l }

/-- `RST <- l`, emits `LineRST(l)` (R23, R53). -/
def writeRST (l : Level) (s : State) : State := emit (.lineRST l) { s with rst := l }

/-- `IDX <- v` (R27). -/
def setIndex (v : Word32) (s : State) : State := { s with idx := v }

/-- `NPOLL <- v` (R28). -/
def setPolls (v : Word32) (s : State) : State := { s with npoll := v }

/-- `respond(st, res)`: deliver the response and return to `IDLE` (R12, R32). -/
def respond (status : StatusBits) (result : ResultWord) (s : State) : State :=
  goto .idle (emit (.rsp status result) s)

/-- `raise E`: the next micro-step is A1 of the abort sequence (R12, R187). -/
def raise (error : Status) (s : State) : State := goto (.abortA1 error) s

/-- One micro-step of the abort sequence of R187, the block's one way of taking an error. A1 records it, A2 releases
chip-select if it is asserted, A3 responds and returns to the host. In every other phase there is no move: a request presented
while another operation is in progress waits (R30, U8). -/
def abortOrWait (s : State) : State :=
  match s.ph with
  | .abortA1 error => goto .abortA2 { s with st := statusCode error, res := 0 }
  | .abortA2 => goto .abortA3 (if s.csel then writeCS false s else s)
  | .abortA3 => respond s.st 0 s
  | _ => s

/-- The payload the host holds for the request on port `REQ`. -/
def presentedPayload (s : State) : List Byte :=
  match s.req with
  | [] => []
  | r :: _ => r.payload

/-- Accept the request word `w` from port `REQ`: load `OPR`, `B` and `A` together (R26, R80), emit `Req(w)`, and go to the
first micro-step. The host moves on to its next request (R10, R30). -/
def acceptWord (w : RequestWord) (first : Phase) (s : State) : State :=
  goto first (emit (.req w)
    { s with opr := fieldOp w, b := fieldB w, a := fieldA w, pay := presentedPayload s, req := s.req.tail })

/-- Accept the request of an operation. -/
def accept (i : Instr) (first : Phase) (s : State) : State := acceptWord (encode i) first s

/-- Accept a reserved word: no micro-step of an operation runs; `IllegalRequest` is raised at once (R86, R184). -/
def acceptReserved (w : RequestWord) (s : State) : State := acceptWord w (.abortA1 .illegalRequest) s

/-- `r <- BusTx(b)`, emits `Tx(b, r)`; `fail` raises `BusError`, `ok` goes on (R12, R34, R181). Until the primitive answers,
the micro-step waits and emits nothing (R231). -/
def transmit (byte : Byte) (onOk : State → State) (s : State) : State :=
  let t := { s with bus := s.bus.tail }
  match s.bus.head with
  | none => t
  | some .ok => onOk (emit (.tx byte .ok) t)
  | some .fail => raise .busError (emit (.tx byte .fail) t)

/-- The end of a byte-loop iteration: `IDX <- IDX + 1; repeat` (R112 to R114). -/
def nextByte (loop : Phase) (s : State) : State := goto loop (setIndex (s.idx + 1) s)

/-- `Delay(n)`, emits `Dly(n)` on completion (R12, R35). Until the primitive completes, the micro-step waits. -/
def delay (ms : Word32) (next : Phase) (s : State) : State :=
  let t := { s with dly := s.dly.tail }
  match s.dly.head with
  | .pending => t
  | .completed => goto next (emit (.dly ms) t)

/-- `l <- BusySample()`, emits `Smp(l)` (R12, R24). -/
def sampleBusy (s : State) : State := emit (.smp s.busy.head) { s with busy := s.busy.tail }

/-- The state after a block reset (R210, R211): the block's own state takes its reset values, which abandons the operation in
progress; no event is emitted, no response delivered, and the inputs other than the abandoned payload stand. -/
def blockReset (s : State) : State :=
  { State.reset with
    waitLimit := s.waitLimit, req := s.req, bus := s.bus, busy := s.busy, dly := s.dly, hrst := s.hrst, log := s.log }

end Sys2Proof.Machine
end

