-- ==== Sys2Proof/Machine/AddressWindow.lean ====
section
/-! DEFINITION. The two operations of AddressWindow (41_addresswindow): one micro-step computes, a second responds. Both are
refused, by name, where the result does not fit its fields (R155, U6). -/

namespace Sys2Proof.Machine

/-- `computeWindow(rect)`, S1: the zero test first, then the range (R151, R186). -/
def windowStep (rect : Rectangle) (s : State) : Host.Outcome State Fault Refusal :=
  let t := startOperation s
  if windowDegenerate rect then .next (raise .invalidWindow t)
  else if windowFits rect then .next (goto .computeWindowS2 (setResult (windowResult rect) t))
  else .refused .resultOutOfRange

/-- `computeWindow(rect)` (R151). -/
def execComputeWindow (rect : Rectangle) (s : State) : Host.Outcome State Fault Refusal :=
  match s.ph with
  | .idle => .next (accept (.computeWindow rect) .computeWindowS1 s)
  | .computeWindowS1 => windowStep rect s
  | .computeWindowS2 => .next (respond (statusCode .ok) s.res s)
  | _ => .next (abortOrWait s)

/-- `computeCounter(x, y)` (R154). -/
def execComputeCounter (x y : Coord) (s : State) : Host.Outcome State Fault Refusal :=
  match s.ph with
  | .idle => .next (accept (.computeCounter x y) .computeCounterS1 s)
  | .computeCounterS1 =>
    if counterFits x then .next (goto .computeCounterS2 (setResult (counterResult x y) (startOperation s)))
    else .refused .resultOutOfRange
  | .computeCounterS2 => .next (respond (statusCode .ok) s.res s)
  | _ => .next (abortOrWait s)

end Sys2Proof.Machine
end

