-- ==== Sys2Proof/Machine/BitExpander.lean ====
section
/-! DEFINITION. The one operation of BitExpander (42_bitexpander). -/

namespace Sys2Proof.Machine

/-- `expand(byte)` (R170). -/
def execExpand (byte : Byte) (s : State) : Host.Outcome State Fault Refusal :=
  match s.ph with
  | .idle => .next (accept (.expand byte) .expandS1 s)
  | .expandS1 => .next (goto .expandS2 (setResult (expandResult byte) (startOperation s)))
  | .expandS2 => .next (respond (statusCode .ok) s.res s)
  | _ => .next (abortOrWait s)

end Sys2Proof.Machine
end

