-- ==== Sys2Proof/Machine/BusFramer.lean ====
section
/-! DEFINITION. The six operations of the BusFramer (40_busframer). Each meaning is the operation's rule written as a table:
`exec i s` is the next micro-step of operation `i` from the phase `PH`. In `IDLE` that is the acceptance of its request; in its
own phases, the micro-step of that label; in the abort phases, the abort sequence; in a phase of another operation, no move
(`abortOrWait`). -/

namespace Sys2Proof.Machine

/-- `sendCommand(code)` (R111). -/
def execSendCommand (code : Byte) (s : State) : Host.Outcome State Fault Refusal :=
  match s.ph with
  | .idle => .next (accept (.sendCommand code) .sendCommandS1 s)
  | .sendCommandS1 => .next (goto .sendCommandS2 (writeDC false (startOperation s)))
  | .sendCommandS2 => .next (goto .sendCommandS3 (writeCS true s))
  | .sendCommandS3 => .next (transmit code (goto .sendCommandS4) s)
  | .sendCommandS4 => .next (goto .sendCommandS5 (writeCS false s))
  | .sendCommandS5 => .next (respond (statusCode .ok) 0 s)
  | _ => .next (abortOrWait s)

/-- `sendData(bytes)` (R112, R119). -/
def execSendData (len : Word32) (s : State) : Host.Outcome State Fault Refusal :=
  match s.ph with
  | .idle => .next (accept (.sendData len) .sendDataS1 s)
  | .sendDataS1 => .next (goto .sendDataS2 (writeDC true (startOperation s)))
  | .sendDataS2 => .next (goto .sendDataS3 (setIndex 0 (writeCS true s)))
  | .sendDataS3 =>
    if s.idx = len then .next (goto .sendDataS4 s)
    else
      match payRead s.idx s with
      | some byte => .next (goto (.sendDataS3Tx byte) (emit (.payRd s.idx byte) s))
      | none => .refused .payloadMissing
  | .sendDataS3Tx byte => .next (transmit byte (nextByte .sendDataS3) s)
  | .sendDataS4 => .next (goto .sendDataS5 (writeCS false s))
  | .sendDataS5 => .next (respond (statusCode .ok) 0 s)
  | _ => .next (abortOrWait s)

/-- `sendCommandWithData(code, bytes)`, in one select window (R113, R119; C2, D8). -/
def execSendCommandWithData (code : Byte) (len : Word32) (s : State) : Host.Outcome State Fault Refusal :=
  match s.ph with
  | .idle => .next (accept (.sendCommandWithData code len) .sendCommandWithDataS1 s)
  | .sendCommandWithDataS1 => .next (goto .sendCommandWithDataS2 (writeDC false (startOperation s)))
  | .sendCommandWithDataS2 => .next (goto .sendCommandWithDataS3 (setIndex 0 (writeCS true s)))
  | .sendCommandWithDataS3 => .next (transmit code (goto .sendCommandWithDataS4) s)
  | .sendCommandWithDataS4 => .next (goto .sendCommandWithDataS5 (writeDC true s))
  | .sendCommandWithDataS5 =>
    if s.idx = len then .next (goto .sendCommandWithDataS6 s)
    else
      match payRead s.idx s with
      | some byte => .next (goto (.sendCommandWithDataS5Tx byte) (emit (.payRd s.idx byte) s))
      | none => .refused .payloadMissing
  | .sendCommandWithDataS5Tx byte => .next (transmit byte (nextByte .sendCommandWithDataS5) s)
  | .sendCommandWithDataS6 => .next (goto .sendCommandWithDataS7 (writeCS false s))
  | .sendCommandWithDataS7 => .next (respond (statusCode .ok) 0 s)
  | _ => .next (abortOrWait s)

/-- `repeatByte(value, count)`: streamed, with no payload (R114, R119). -/
def execRepeatByte (value : Byte) (count : Word32) (s : State) : Host.Outcome State Fault Refusal :=
  match s.ph with
  | .idle => .next (accept (.repeatByte value count) .repeatByteS1 s)
  | .repeatByteS1 => .next (goto .repeatByteS2 (writeDC true (startOperation s)))
  | .repeatByteS2 => .next (goto .repeatByteS3 (setIndex 0 (writeCS true s)))
  | .repeatByteS3 =>
    if s.idx = count then .next (goto .repeatByteS4 s)
    else .next (transmit value (nextByte .repeatByteS3) s)
  | .repeatByteS4 => .next (goto .repeatByteS5 (writeCS false s))
  | .repeatByteS5 => .next (respond (statusCode .ok) 0 s)
  | _ => .next (abortOrWait s)

/-- `reset(durationLowMs, durationAfterMs)`: the panel reset (R115, R212). -/
def execReset (low after : Word32) (s : State) : Host.Outcome State Fault Refusal :=
  match s.ph with
  | .idle => .next (accept (.reset low after) .resetS1 s)
  | .resetS1 => .next (goto .resetS2 (writeRST false (startOperation s)))
  | .resetS2 => .next (delay low .resetS3 s)
  | .resetS3 => .next (goto .resetS4 (writeRST true s))
  | .resetS4 => .next (delay after .resetS5 s)
  | .resetS5 => .next (respond (statusCode .ok) 0 s)
  | _ => .next (abortOrWait s)

/-- `waitUntilIdle(busyActiveLow)`, S2: one sample of the busy line and what follows from it (R116). -/
def pollOnce (busyActiveLow : Bool) (s : State) : State :=
  let t := sampleBusy s
  if busyState busyActiveLow s.busy.head then
    let u := setPolls (pollCount t.npoll) t
    if limitReached u.waitLimit u.npoll then raise .timeout u else u
  else goto .waitUntilIdleS3 t

/-- `waitUntilIdle(busyActiveLow)` (R116). -/
def execWaitUntilIdle (busyActiveLow : Bool) (s : State) : Host.Outcome State Fault Refusal :=
  match s.ph with
  | .idle => .next (accept (.waitUntilIdle busyActiveLow) .waitUntilIdleS1 s)
  | .waitUntilIdleS1 => .next (goto .waitUntilIdleS2 (setPolls 0 (startOperation s)))
  | .waitUntilIdleS2 => .next (pollOnce busyActiveLow s)
  | .waitUntilIdleS3 => .next (respond (statusCode .ok) 0 s)
  | _ => .next (abortOrWait s)

end Sys2Proof.Machine
end

