-- ==== Sys2Proof/Machine/Dispatch.lean ====
section
/-! DEFINITION. One arm per operation: `exec i s` is the next micro-step of operation `i` from the phase `PH` of `s`. -/

namespace Sys2Proof.Machine

def exec (i : Instr) (s : State) : Host.Outcome State Fault Refusal :=
  match i with
  | .sendCommand code => Sys2Proof.Machine.execSendCommand code s
  | .sendData len => Sys2Proof.Machine.execSendData len s
  | .sendCommandWithData code len => Sys2Proof.Machine.execSendCommandWithData code len s
  | .repeatByte value count => Sys2Proof.Machine.execRepeatByte value count s
  | .reset low after => Sys2Proof.Machine.execReset low after s
  | .waitUntilIdle busyActiveLow => Sys2Proof.Machine.execWaitUntilIdle busyActiveLow s
  | .computeWindow rect => Sys2Proof.Machine.execComputeWindow rect s
  | .computeCounter x y => Sys2Proof.Machine.execComputeCounter x y s
  | .expand byte => Sys2Proof.Machine.execExpand byte s

end Sys2Proof.Machine
end

