-- ==== Sys2Proof/Machine/Sequencer.lean ====
section
/-! DEFINITION. The sequencer: what one step of the machine does. It reads `hrst`; in `IDLE` it accepts the request on port
`REQ`, in an operation's phase it runs that operation's next micro-step, in an abort phase the abort sequence (R9 (b), R25, R30,
R187, R210). -/

namespace Sys2Proof.Machine

/-- The operation a phase is a label of, by its operation code (R25, R81); none for `IDLE` and the abort labels. -/
def phaseOpcode : Phase → Option Byte
  | .idle => none
  | .sendCommandS1 | .sendCommandS2 | .sendCommandS3 | .sendCommandS4 | .sendCommandS5 => some 0x01#8
  | .sendDataS1 | .sendDataS2 | .sendDataS3 | .sendDataS3Tx _ | .sendDataS4 | .sendDataS5 => some 0x02#8
  | .sendCommandWithDataS1 | .sendCommandWithDataS2 | .sendCommandWithDataS3 | .sendCommandWithDataS4
  | .sendCommandWithDataS5 | .sendCommandWithDataS5Tx _ | .sendCommandWithDataS6 | .sendCommandWithDataS7 => some 0x03#8
  | .repeatByteS1 | .repeatByteS2 | .repeatByteS3 | .repeatByteS4 | .repeatByteS5 => some 0x04#8
  | .resetS1 | .resetS2 | .resetS3 | .resetS4 | .resetS5 => some 0x05#8
  | .waitUntilIdleS1 | .waitUntilIdleS2 | .waitUntilIdleS3 => some 0x06#8
  | .computeWindowS1 | .computeWindowS2 => some 0x07#8
  | .computeCounterS1 | .computeCounterS2 => some 0x08#8
  | .expandS1 | .expandS2 => some 0x09#8
  | .abortA1 _ | .abortA2 | .abortA3 => none

/-- In `IDLE`: accept the request on port `REQ` if the host presents one (R30, R85, R86). -/
def acceptStep (s : State) : Host.Outcome State Fault Refusal :=
  match s.req with
  | [] => .next s
  | r :: _ =>
    match decode r.word with
    | .instr i => exec i s
    | .reserved _ => .next (acceptReserved r.word s)

/-- In an operation's phase: the next micro-step of the operation the latches hold. The latches do not change until the
response (R26), so reading the operation from them again gives what was decoded at acceptance (R85; log entry 17). -/
def operationStep (code : Byte) (s : State) : Host.Outcome State Fault Refusal :=
  match decode (latchedWord s) with
  | .instr i => if i.opcode = code then exec i s else .fault .phaseMismatch
  | .reserved _ => .fault .phaseMismatch

/-- One step with `hrst` deasserted. -/
def sequencerStep (s : State) : Host.Outcome State Fault Refusal :=
  match phaseOpcode s.ph with
  | some code => operationStep code s
  | none => if s.ph = .idle then acceptStep s else .next (abortOrWait s)

/-- One step: `hrst` asserted puts the block in its reset state and nothing else happens (R210, R211). -/
def clockStep (s : State) : Host.Outcome State Fault Refusal :=
  let t := { s with hrst := s.hrst.tail }
  match s.hrst with
  | true :: _ => .next (blockReset t)
  | false :: _ => sequencerStep t
  | [] => sequencerStep t

/-- The host presents a request, with no payload bytes, to a block in `IDLE` that is not held in reset. -/
def presentWord (w : RequestWord) (s : State) : State :=
  { s with ph := .idle, hrst := [], req := ⟨w, []⟩ :: s.req }

end Sys2Proof.Machine
end

