-- ==== Sys2Proof/Machine/Step.lean ====
section
/-! DEFINITION. One step of the machine: one micro-step of the sequencer (R8, R9 (b), R25). -/

namespace Sys2Proof.Machine

/-- One step. -/
def step (s : State) : Host.Outcome State Fault Refusal := clockStep s

/-- `s` with the request word `w`, numbered as spec/opcode_table.json numbers it, presented on port `REQ`: the next step
accepts it and nothing else (R30; log entry 10). -/
def State.withFetchWord (s : State) (_nbits w : Nat) : State := presentWord (BitVec.ofNat 72 w) s

end Sys2Proof.Machine
end

