-- ==== Sys2Proof/Safety.lean ====
section
/-! DEFINITION. What the claims speak of: runs, the invariant of the states that block reset and steps reach, the host's
premises (R213 to R228), and the events of a whole data frame. -/

namespace Sys2Proof.Machine

/-- `k` steps, through the host's interface. -/
def run (k : Nat) (s : State) : Host.Outcome State Fault Refusal := Host.Core.run Sys2Proof.core k s

/-- The four framing operations of R110. -/
def isFraming : Instr → Bool
  | .sendCommand _ => true
  | .sendData _ => true
  | .sendCommandWithData _ _ => true
  | .repeatByte _ _ => true
  | .reset _ _ => false
  | .waitUntilIdle _ => false
  | .computeWindow _ => false
  | .computeCounter _ _ => false
  | .expand _ => false

/-- The three operations of AddressWindow and BitExpander, which touch no port but `REQ` and `RSP` (R157, R175). -/
def isPure : Instr → Bool
  | .sendCommand _ => false
  | .sendData _ => false
  | .sendCommandWithData _ _ => false
  | .repeatByte _ _ => false
  | .reset _ _ => false
  | .waitUntilIdle _ => false
  | .computeWindow _ => true
  | .computeCounter _ _ => true
  | .expand _ => true

/-- Why an error is raised (R88, R181 to R184), told from the request latched, the bound `WAIT_LIMIT`, and the events up to
the raise, newest first: a framing operation whose newest event is a transfer that answered `fail`; a degenerate
`computeWindow`; a `waitUntilIdle` whose newest `WAIT_LIMIT` events are samples that read busy, `WAIT_LIMIT` not 0; a reserved
request word. -/
def hasCause (request : Decoded) (waitLimit : Word32) (events : List Event) : Status → Prop
  | .ok => False
  | .busError => ∃ i byte earlier, request = .instr i ∧ isFraming i = true ∧ events = .tx byte .fail :: earlier
  | .invalidWindow => ∃ rect, request = .instr (.computeWindow rect) ∧ windowDegenerate rect = true
  | .timeout =>
    ∃ p, request = .instr (.waitUntilIdle p) ∧ waitLimit ≠ 0 ∧ List.replicate waitLimit.toNat (.smp (!p)) <+: events
  | .illegalRequest => ∃ why, request = .reserved why

/-- The event A2 emits before the response to an error: the release of chip-select, for `BusError` only (R187). -/
def abortEvents (error : Status) : List Event := if error = .busError then [.lineCS false] else []

/-- `CSEL` in each phase: asserted from S2's write to the release (R110, R113), and in the abort sequence until A2 when a bus
transfer failed inside a select window (R187). -/
def selectedIn (ph : Phase) (st : StatusBits) : Bool :=
  match ph with
  | .sendCommandS3 | .sendCommandS4 => true
  | .sendDataS3 | .sendDataS3Tx _ | .sendDataS4 => true
  | .sendCommandWithDataS3 | .sendCommandWithDataS4 | .sendCommandWithDataS5 | .sendCommandWithDataS5Tx _
  | .sendCommandWithDataS6 => true
  | .repeatByteS3 | .repeatByteS4 => true
  | .abortA1 error => decide (error = .busError)
  | .abortA2 => decide (st = statusCode .busError)
  | _ => false

/-- `DC` in each phase of a framing operation after it has written it (R110 to R114). -/
def frameLevel : Phase → Option Level
  | .sendCommandS2 | .sendCommandS3 | .sendCommandS4 | .sendCommandS5 => some false
  | .sendDataS2 | .sendDataS3 | .sendDataS3Tx _ | .sendDataS4 | .sendDataS5 => some true
  | .sendCommandWithDataS2 | .sendCommandWithDataS3 | .sendCommandWithDataS4 => some false
  | .sendCommandWithDataS5 | .sendCommandWithDataS5Tx _ | .sendCommandWithDataS6 | .sendCommandWithDataS7 => some true
  | .repeatByteS2 | .repeatByteS3 | .repeatByteS4 | .repeatByteS5 => some true
  | _ => none

/-- `RST` in each phase: low only between S1 and S3 of `reset` (R115). -/
def resetLevel : Phase → Level
  | .resetS2 | .resetS3 => false
  | _ => true

/-- The phases in which `ST` is `OK` because the operation has started and no error has been raised (R29). -/
def started : Phase → Bool
  | .idle | .abortA1 _ | .abortA2 | .abortA3 => false
  | .sendCommandS1 | .sendDataS1 | .sendCommandWithDataS1 | .repeatByteS1 | .resetS1 | .waitUntilIdleS1 => false
  | .computeWindowS1 | .computeCounterS1 | .expandS1 => false
  | _ => true

/-- The phases in which `RES` may hold a result: before a start, and while a pure operation's result waits (R29). -/
def mayHoldResult : Phase → Bool
  | .computeWindowS2 | .computeCounterS2 | .expandS2 => true
  | .abortA2 | .abortA3 => false
  | ph => !started ph

/-- `IDX` against the length operand in `B` (R27). -/
def indexInRange (ph : Phase) (idx b : Word32) : Prop :=
  match ph with
  | .sendDataS3 | .sendCommandWithDataS5 | .repeatByteS3 => idx ≤ b
  | .sendDataS3Tx _ | .sendCommandWithDataS5Tx _ => idx < b
  | .sendCommandWithDataS3 | .sendCommandWithDataS4 => idx = 0
  | .sendDataS4 | .sendDataS5 | .sendCommandWithDataS6 | .sendCommandWithDataS7 | .repeatByteS4 | .repeatByteS5 => idx = b
  | _ => True

/-- `NPOLL` against `WAIT_LIMIT` while `waitUntilIdle` samples (R28, R116). -/
def pollsInRange (ph : Phase) (waitLimit npoll : Word32) : Prop :=
  match ph with
  | .waitUntilIdleS2 => waitLimit ≠ 0 → npoll < waitLimit
  | _ => True

/-- The phases after the operation's first micro-step, or A1, has written `ST` (R29); before it, and in `IDLE` after block
reset, `ST` is unspecified (R40, U11). -/
def statusWritten : Phase → Bool
  | .abortA2 | .abortA3 => true
  | ph => started ph

/-- The error in the abort sequence has its cause (R88, R181 to R184), told from the events so far, newest first. -/
def errorHasCause (ph : Phase) (st : StatusBits) (request : Decoded) (waitLimit : Word32) (events : List Event) : Prop :=
  match ph with
  | .abortA1 error => hasCause request waitLimit events error
  | .abortA2 => ∃ error, st = statusCode error ∧ hasCause request waitLimit events error
  | .abortA3 =>
    ∃ error earlier, st = statusCode error ∧ events = abortEvents error ++ earlier ∧ hasCause request waitLimit earlier error
  | _ => True

/-- The invariant of the states that block reset and steps reach. -/
structure Consistent (s : State) : Prop where
  /-- Chip-select is asserted exactly in the select windows; in `IDLE` it is released (R118). -/
  select : s.csel = selectedIn s.ph s.st
  /-- The data/command line stands at its frame's level (R110). -/
  level : ∀ l, frameLevel s.ph = some l → s.dc = l
  /-- The panel is held in reset only by the `reset` operation (R115). -/
  reset : s.rst = resetLevel s.ph
  /-- The latches hold the operation whose phase this is (R26). -/
  latched : ∀ code, phaseOpcode s.ph = some code → ∃ i, decode (latchedWord s) = .instr i ∧ i.opcode = code
  /-- Where `ST` has been written, it holds no status that R88 reserves. -/
  status : statusWritten s.ph = true → s.st.toNat ≤ 4
  /-- `ST` is `OK` while the operation runs without error (R29). -/
  running : started s.ph = true → s.st = statusCode .ok
  /-- `RES` is 0 but for a pure operation's result (R29, R89). -/
  result : mayHoldResult s.ph = false → s.res = 0
  /-- `IDX` lies within the length operand (R27). -/
  index : indexInRange s.ph s.idx s.b
  /-- `NPOLL` lies below the limit (R28, R116). -/
  polls : pollsInRange s.ph s.waitLimit s.npoll
  /-- The newest `NPOLL` events of a `waitUntilIdle` are samples that read busy (R28, R116). -/
  samples : ∀ p, s.ph = .waitUntilIdleS2 → decode (latchedWord s) = .instr (.waitUntilIdle p) →
    List.replicate s.npoll.toNat (.smp (!p)) <+: s.log
  /-- An error in the abort sequence has its cause (R88). -/
  cause : errorHasCause s.ph s.st (decode (latchedWord s)) s.waitLimit s.log

/-- The ranges of a call's numbers, from the widths of R7, R64 and R82. -/
def callInRange : Call → Prop
  | .sendCommand code => code ≤ 255
  | .sendData bytes => (∀ b ∈ bytes, b ≤ 255) ∧ bytes.length ≤ 4294967295
  | .sendCommandWithData code bytes => code ≤ 255 ∧ (∀ b ∈ bytes, b ≤ 255) ∧ bytes.length ≤ 4294967295
  | .repeatByte value count => value ≤ 255 ∧ count ≤ 4294967295
  | .reset low after => low ≤ 4294967295 ∧ after ≤ 4294967295
  | .waitUntilIdle _ => True
  | .computeWindow x y width height => x ≤ 65535 ∧ y ≤ 65535 ∧ width ≤ 65535 ∧ height ≤ 65535
  | .computeCounter x y => x ≤ 65535 ∧ y ≤ 65535
  | .expand byte => byte ≤ 255

/-- An operation with its payload carries exactly the numbers of a call, each under its own operand name (R82, R84, R90). -/
def callCarried : Call → Instr → List Byte → Prop
  | .sendCommand code, .sendCommand code', payload => code'.toNat = code ∧ payload = []
  | .sendData bytes, .sendData len, payload => len.toNat = bytes.length ∧ payload.map BitVec.toNat = bytes
  | .sendCommandWithData code bytes, .sendCommandWithData code' len, payload =>
    code'.toNat = code ∧ len.toNat = bytes.length ∧ payload.map BitVec.toNat = bytes
  | .repeatByte value count, .repeatByte value' count', payload =>
    value'.toNat = value ∧ count'.toNat = count ∧ payload = []
  | .reset low after, .reset low' after', payload => low'.toNat = low ∧ after'.toNat = after ∧ payload = []
  | .waitUntilIdle flag, .waitUntilIdle flag', payload => flag' = flag ∧ payload = []
  | .computeWindow x y width height, .computeWindow rect, payload =>
    rect.x.toNat = x ∧ rect.y.toNat = y ∧ rect.width.toNat = width ∧ rect.height.toNat = height ∧ payload = []
  | .computeCounter x y, .computeCounter x' y', payload => x'.toNat = x ∧ y'.toNat = y ∧ payload = []
  | .expand byte, .expand byte', payload => byte'.toNat = byte ∧ payload = []
  | _, _, _ => False

/-- The host presents the request of operation `i`, with its payload, to a block in `IDLE`, and `hrst` stays deasserted. -/
structure Presents (s : State) (i : Instr) (payload : List Byte) (later : List Request) : Prop where
  idle : s.ph = .idle
  running : s.hrst = []
  request : s.req = ⟨encode i, payload⟩ :: later

/-- The state when an operation has been accepted and has ended (R26, R118): what every operation does to the latches, the
request port and the trace; `events` are the operation's events from its acceptance to its response. -/
def ended (s : State) (w : RequestWord) (payload : List Byte) (later : List Request) (status : Status)
    (result : ResultWord) (events : List Event) : State :=
  { s with
    ph := .idle, opr := fieldOp w, a := fieldA w, b := fieldB w, pay := payload, req := later,
    st := statusCode status, res := result,
    log := (s.trace ++ [Event.req w] ++ events ++ [Event.rsp (statusCode status) result]).reverse }

/-- The next `n` transfers succeed (U5, named as a premise). -/
def allOk (bus : Draws (Option TxAnswer)) (n : Nat) : Prop := ∀ k, k < n → (bus.drop k).head = some .ok

/-- The next `n` transfers succeed and the one after them fails. -/
def failsAt (bus : Draws (Option TxAnswer)) (n : Nat) : Prop := allOk bus n ∧ (bus.drop n).head = some .fail

/-- The next `n` samples of the busy line read busy (R116). -/
def allBusy (busyActiveLow : Bool) (busy : Draws Level) (n : Nat) : Prop :=
  ∀ k, k < n → busyState busyActiveLow (busy.drop k).head = true

/-- The events of the samples taken by `n` polls, in order (R116). -/
def pollEvents (busy : Draws Level) (n : Nat) : List Event := (List.range n).map fun k => .smp (busy.drop k).head

/-- The events of payload bytes read and transmitted from index `i` on, in order (R112, R113). -/
def dataEvents (i : Nat) : List Byte → List Event
  | [] => []
  | byte :: rest => .payRd (BitVec.ofNat 32 i) byte :: .tx byte .ok :: dataEvents (i + 1) rest

/-- The panel-size bounds of R7. -/
def panelSizeOk (panelW panelH : Nat) : Prop :=
  1 ≤ panelW ∧ panelW ≤ Config.panelWidthMax ∧ 1 ≤ panelH ∧ panelH ≤ Config.panelHeightMax

/-- The Rectangle invariant, a duty of the host (R150, R228). -/
def inPanel (panelW panelH : Nat) (r : Rectangle) : Prop :=
  r.x.toNat + r.width.toNat ≤ panelW ∧ r.y.toNat + r.height.toNat ≤ panelH

/-- Columns added on the left by byte rounding (R153). -/
def padLeft (r : Rectangle) : Nat := r.x.toNat - 8 * windowXStart r

/-- Columns added on the right by byte rounding (R153). -/
def padRight (r : Rectangle) : Nat := 8 * windowXEnd r + 7 - (r.x.toNat + r.width.toNat - 1)

/-- Bytes in a row of the window, the byte-rounded width in bytes (R153, R223). -/
def bytesPerRow (r : Rectangle) : Nat := windowXEnd r - windowXStart r + 1

/-- The byte-rounded width in pixels (R153). -/
def byteRoundedWidth (r : Rectangle) : Nat := 8 * bytesPerRow r

/-- The buffer length R63 asks for: `ceil(width/8) * height` at the byte-rounded width. -/
def bufferLength (r : Rectangle) : Nat := (byteRoundedWidth r + 7) / 8 * r.height.toNat

/-- The values of the state that no operation's behaviour rests on, blanked (R22, R23, R40). -/
def withoutLines (s : State) : State := { s with dc := false, rst := false }

/-- Two outcomes agree but for the levels of `DC` and `RST`. -/
def agreeButLines : Host.Outcome State Fault Refusal → Host.Outcome State Fault Refusal → Prop
  | .next s, .next t => withoutLines s = withoutLines t
  | .fault f, .fault g => f = g
  | .refused r, .refused q => r = q
  | _, _ => False

/-- Two outcomes show the outside the same thing: the same trace, or the same stop. -/
def sameTrace : Host.Outcome State Fault Refusal → Host.Outcome State Fault Refusal → Prop
  | .next s, .next t => s.trace = t.trace
  | .fault f, .fault g => f = g
  | .refused r, .refused q => r = q
  | _, _ => False

/-- Two states in `IDLE` that differ at most in the latches block reset leaves unspecified (R40, U11) and in the payload of an
operation that has ended. -/
def sameButDeadLatches (s t : State) : Prop :=
  s.ph = .idle ∧
    t = { s with opr := t.opr, a := t.a, b := t.b, idx := t.idx, npoll := t.npoll, st := t.st, res := t.res, pay := t.pay }

end Sys2Proof.Machine
end

