-- ==== Sys2Proof/Certificates/Slice0/Obligations.lean ====
section
/-! DEFINITION. The statements for the provers, from the numbered rules of spec/. A step is one micro-step of an operation's rule,
and `exec i s` is the next micro-step of operation `i` from the phase of `s`; whole operations are stated over `run`. -/

open Sys2Proof Sys2Proof.Machine

/-! ### Encoding -/

/-- R82, R85: the decoder reads every operation back from its word, every operand at every value. -/
def Obligations.DecodeEncodeAgree : Prop := ∀ i : Instr, decode (encode i) = .instr i

/-- R83, R85: a legal word has one meaning; no bit of it is dropped. -/
def Obligations.LegalWordEncodesBack : Prop := ∀ (w : RequestWord) (i : Instr), decode w = .instr i → encode i = w

/-- R85: the decoder answers a row's operation exactly for the words the row matches, `Reserved` exactly for the words no row
matches, and at most one row matches a word. -/
def Obligations.DecoderFollowsTable : Prop :=
  (∀ w : RequestWord, (∃ why, decode w = .reserved why) ↔ ∀ r ∈ opcodeTable, w &&& r.mask ≠ r.bits) ∧
  (∀ (w : RequestWord) (i : Instr), decode w = .instr i → i.row ∈ opcodeTable ∧ w &&& i.row.mask = i.row.bits) ∧
  (∀ w : RequestWord, ∀ r ∈ opcodeTable, ∀ q ∈ opcodeTable, w &&& r.mask = r.bits → w &&& q.mask = q.bits → r = q)

/-- Words of 95_test_vectors (section 2.4; `reset` is T17 of section 2.1, `computeWindow` row 7 of section 2.2), with what R82
and R85 read from them. -/
def Obligations.SampleWordsDecode : Prop :=
  decode 0x0100000000000000FF#72 = .instr (.sendCommand 0xFF#8) ∧
  decode 0x02FFFFFFFF00000000#72 = .instr (.sendData 0xFFFFFFFF#32) ∧
  decode 0x0400001388000000FF#72 = .instr (.repeatByte 0xFF#8 5000#32) ∧
  decode 0x0500000001FFFFFFFF#72 = .instr (.reset 0xFFFFFFFF#32 1#32) ∧
  decode 0x060000000000000001#72 = .instr (.waitUntilIdle true) ∧
  decode 0x07002E001C00FA0064#72 = .instr (.computeWindow ⟨100#16, 250#16, 28#16, 46#16⟩) ∧
  decode 0x0800000000FFFF07FF#72 = .instr (.computeCounter 2047#16 65535#16) ∧
  decode 0x060000000000000002#72 = .reserved (.mustBeZero 0x06#8) ∧
  decode 0x0A0000000000000000#72 = .reserved (.opcode 0x0A#8)

/-- A word that no row matches runs no micro-step of an operation: it is accepted and answered `IllegalRequest` with result 0,
and apart from the latches the acceptance loads, the request port, the response under assembly and the trace, nothing changes
(R80, R86, R184, R187). That such a word loads the latches and is answered in four steps, its acceptance and A1 to A3, is the
model's (log entries 1, 3 and 18). -/
def Obligations.IllegalRequestAnswered : Prop :=
  ∀ (s : State) (w : RequestWord) (payload : List Byte) (later : List Request),
    (∀ r ∈ opcodeTable, w &&& r.mask ≠ r.bits) → s.ph = .idle → s.csel = false → s.hrst = [] →
    s.req = ⟨w, payload⟩ :: later →
    run 4 s = .next (ended s w payload later .illegalRequest 0 [])

/-- R82, R84, R90: a call whose numbers lie in their ranges assembles to a request whose word decodes to an operation of the
same name that carries, with the payload, exactly the call's numbers; a call with a number out of range assembles to nothing. -/
def Obligations.CallsAssemble : Prop :=
  (∀ c : Call, ¬ callInRange c → c.assemble = none) ∧
  (∀ c : Call, callInRange c →
    ∃ r i, c.assemble = some r ∧ decode r.word = .instr i ∧ callCarried c i r.payload ∧ i.payloadFits r.payload = true)

/-! ### The machine -/

/-- R40: the values the spec gives block reset. -/
def Obligations.ResetStateValues : Prop :=
  State.reset.csel = false ∧ State.reset.dc = false ∧ State.reset.rst = true ∧ State.reset.ph = .idle ∧
    csPin State.reset = true

/-- R210, R211: asserting `hrst` at any micro-step puts the lines and the phase in their reset state, emits nothing, delivers no
response and accepts no request. -/
def Obligations.BlockResetAbandons : Prop :=
  ∀ (s : State) (levels : List Bool), s.hrst = true :: levels →
    ∃ t, step s = .next t ∧ t.csel = false ∧ t.dc = false ∧ t.rst = true ∧ t.ph = .idle ∧ t.log = s.log ∧ t.req = s.req ∧
      t.waitLimit = s.waitLimit ∧ t.bus = s.bus ∧ t.busy = s.busy ∧ t.dly = s.dly ∧ t.hrst = levels

/-- A step with `hrst` deasserted runs the operation whose request is on port `REQ` in `IDLE`, or whose latches are loaded in a
phase of it; in `IDLE` with no request it does nothing; and a word presented by `withFetchWord` is what the next step runs.
The model's choices in it: one step is one micro-step, read after `hrst` (log entries 1 and 6); decoding the latches again at
each micro-step, where R85 decodes once, at acceptance (log entry 17); and `withFetchWord` for the host (log entry 10). -/
def Obligations.StepRunsDecodedRequest : Prop :=
  (∀ (s : State) (i : Instr), s.hrst.head? ≠ some true →
    ((∃ r later, s.ph = .idle ∧ s.req = r :: later ∧ decode r.word = .instr i) ∨
      (decode (latchedWord s) = .instr i ∧ phaseOpcode s.ph = some i.opcode)) →
    step s = exec i { s with hrst := s.hrst.tail }) ∧
  (∀ s : State, s.hrst.head? ≠ some true → s.ph = .idle → s.req = [] → step s = .next { s with hrst := s.hrst.tail }) ∧
  (∀ (s : State) (nbits w : Nat) (i : Instr), decodeTableWord nbits w = some i →
    step (s.withFetchWord nbits w) = exec i (s.withFetchWord nbits w))

/-- The invariant holds at reset. -/
def Obligations.InvariantAtReset : Prop := Consistent State.reset

/-- Every step keeps the invariant: chip-select asserted exactly in the select windows, the data/command line at its frame's
level, `RST` low only inside `reset`, the latches holding the running operation, `IDX` within the length, the newest `NPOLL`
events of a wait busy samples, no status of 5 to 7 where `ST` has been written, an error only with its cause (R22, R25 to R29,
R88, R110, R115, R116, R118, R181 to R184). -/
def Obligations.StepKeepsInvariant : Prop := ∀ s t : State, Consistent s → step s = .next t → Consistent t

/-- In every state that reset and steps reach, a step raises no fault: the model's only fault is unreachable (log entry 15). -/
def Obligations.InvariantRulesOutFault : Prop := ∀ (s : State) (f : Fault), Consistent s → step s ≠ .fault f

/-- R13: a micro-step emits at most one event, after all events before it. -/
def Obligations.OneEventPerStep : Prop :=
  ∀ s t : State, step s = .next t → t.trace = s.trace ∨ ∃ e, t.trace = s.trace ++ [e]

/-- R30: while an operation is in progress the request on the port waits: it is neither taken nor recorded. -/
def Obligations.RequestWaitsWhileBusy : Prop :=
  ∀ s t : State, s.ph ≠ .idle → step s = .next t → t.req = s.req ∧ ∀ w, t.trace ≠ s.trace ++ [.req w]

/-- R30, U8: a request of another operation makes no move while an operation is in progress. -/
def Obligations.OtherRequestMakesNoMove : Prop :=
  ∀ (i : Instr) (s : State) (code : Byte), phaseOpcode s.ph = some code → i.opcode ≠ code → exec i s = .next s

/-- R36: `WAIT_LIMIT` is constant during a run; no operation, no error and no block reset writes it. -/
def Obligations.WaitLimitNeverWritten : Prop :=
  ∀ (k : Nat) (s t : State), run k s = .next t → t.waitLimit = s.waitLimit

/-- R118: at every response chip-select is released, `RST` is 1, the block is in `IDLE`, and `DC` keeps its level. -/
def Obligations.ResponseLeavesBusDeselected : Prop :=
  ∀ (s t : State) (status : StatusBits) (result : ResultWord), Consistent s → step s = .next t →
    t.trace = s.trace ++ [.rsp status result] →
    t.csel = false ∧ t.rst = true ∧ t.ph = .idle ∧ t.dc = s.dc

/-- R51, R110, R117: a byte is handed to the bus only while chip-select is asserted and the panel runs; with `DC` low it is the
command byte of the operation in progress, which happens once a window; with `DC` high it is a data byte. -/
def Obligations.TransmitsOnlyWhileSelected : Prop :=
  ∀ (s t : State) (byte : Byte) (answer : TxAnswer), Consistent s → step s = .next t →
    t.trace = s.trace ++ [.tx byte answer] →
    s.csel = true ∧ s.rst = true ∧
      ((s.dc = false ∧ (decode (latchedWord s) = .instr (.sendCommand byte) ∨
          ∃ len, decode (latchedWord s) = .instr (.sendCommandWithData byte len))) ∨
        (s.dc = true ∧ ((∃ len, decode (latchedWord s) = .instr (.sendData len)) ∨
          (∃ code len, decode (latchedWord s) = .instr (.sendCommandWithData code len)) ∨
          ∃ count, decode (latchedWord s) = .instr (.repeatByte byte count))))

/-- R110, R113: inside a select window the data/command line changes only at S4 of `sendCommandWithData`. -/
def Obligations.FrameLevelStable : Prop :=
  ∀ s t : State, Consistent s → step s = .next t → s.csel = true → t.csel = true → t.dc ≠ s.dc →
    s.ph = .sendCommandWithDataS4 ∧ s.dc = false ∧ t.dc = true

/-- R88, R181 to R184: a response carries a status of the table, and an error status comes with result 0 and with the cause
the table names: `BusError` from a framing operation whose last transfer, just before the release of chip-select, answered
`fail`; `InvalidWindow` from a `computeWindow` with a zero dimension; `Timeout` from a `waitUntilIdle` whose last `WAIT_LIMIT`
events, `WAIT_LIMIT` not 0, are busy samples; `IllegalRequest` from a reserved word. So 5 to 7 are never produced, and `reset`,
`computeCounter` and `expand` answer `OK`. -/
def Obligations.ErrorStatusHasItsCause : Prop :=
  ∀ (s t : State) (status : StatusBits) (result : ResultWord), Consistent s → step s = .next t →
    t.trace = s.trace ++ [.rsp status result] →
    ∃ e, status = statusCode e ∧
      (e ≠ .ok → result = 0 ∧
        ∃ earlier, s.log = abortEvents e ++ earlier ∧ hasCause (decode (latchedWord s)) s.waitLimit earlier e)

/-- R22, R23, R40: no step reads `DC` or `RST`: states that differ only in the two levels step to outcomes that differ only in
the two levels. -/
def Obligations.LineLevelsNeverRead : Prop :=
  ∀ (s : State) (dc rst : Level), agreeButLines (step s) (step { s with dc := dc, rst := rst })

/-- R20, R40 (U11): whatever `OPR`, `A`, `B`, `IDX`, `NPOLL`, `ST` and `RES` hold in `IDLE`, every run shows the same trace or
stops the same way; so nothing rests on the zeros the model gives them at reset (log entry 8). -/
def Obligations.DeadLatchesUnobservable : Prop :=
  ∀ (k : Nat) (s t : State), sameButDeadLatches s t → sameTrace (run k s) (run k t)

/-- R187: from a raised error, the three steps of the abort sequence release chip-select if it is asserted, deliver the error
with result 0 and leave everything else; in the states that reset and steps reach, chip-select is asserted then exactly for
`BusError`. -/
def Obligations.AbortSequenceResponds : Prop :=
  (∀ (s : State) (e : Status), s.ph = .abortA1 e → s.hrst = [] →
    run 3 s = .next { s with
      csel := false, ph := .idle, st := statusCode e, res := 0,
      log := .rsp (statusCode e) 0 :: ((if s.csel then [.lineCS false] else []) ++ s.log) }) ∧
  (∀ (s : State) (e : Status), Consistent s → s.ph = .abortA1 e → (s.csel = true ↔ e = .busError))

/-! ### The micro-steps of each operation -/

/-- R111: the micro-steps of `sendCommand`, its acceptance (R26, R80; log entry 10), and `BusError` (R181). That a transfer the
bus has not answered waits is the model's deduction from R231 (log entry 5), here and in the other byte loops. -/
def Obligations.SendCommandMicroSteps : Prop :=
  ∀ (code : Byte) (s : State),
    (s.ph = .idle → exec (.sendCommand code) s = .next { s with
      ph := .sendCommandS1, opr := 0x01#8, a := code.setWidth 32, b := 0, pay := presentedPayload s, req := s.req.tail,
      log := .req (encode (.sendCommand code)) :: s.log }) ∧
    (s.ph = .sendCommandS1 → exec (.sendCommand code) s = .next { s with
      ph := .sendCommandS2, st := 0, res := 0, dc := false, log := .lineDC false :: s.log }) ∧
    (s.ph = .sendCommandS2 → exec (.sendCommand code) s = .next { s with
      ph := .sendCommandS3, csel := true, log := .lineCS true :: s.log }) ∧
    (s.ph = .sendCommandS3 → s.bus.head = some .ok → exec (.sendCommand code) s = .next { s with
      ph := .sendCommandS4, bus := s.bus.tail, log := .tx code .ok :: s.log }) ∧
    (s.ph = .sendCommandS3 → s.bus.head = some .fail → exec (.sendCommand code) s = .next { s with
      ph := .abortA1 .busError, bus := s.bus.tail, log := .tx code .fail :: s.log }) ∧
    (s.ph = .sendCommandS3 → s.bus.head = none → exec (.sendCommand code) s = .next { s with bus := s.bus.tail }) ∧
    (s.ph = .sendCommandS4 → exec (.sendCommand code) s = .next { s with
      ph := .sendCommandS5, csel := false, log := .lineCS false :: s.log }) ∧
    (s.ph = .sendCommandS5 → exec (.sendCommand code) s = .next { s with ph := .idle, log := .rsp 0 0 :: s.log })

/-- R112: the micro-steps of `sendData`, its acceptance, and `BusError`; where the host holds no byte at the index read, the
step is refused (R226, U7). -/
def Obligations.SendDataMicroSteps : Prop :=
  ∀ (len : Word32) (s : State),
    (s.ph = .idle → exec (.sendData len) s = .next { s with
      ph := .sendDataS1, opr := 0x02#8, a := 0, b := len, pay := presentedPayload s, req := s.req.tail,
      log := .req (encode (.sendData len)) :: s.log }) ∧
    (s.ph = .sendDataS1 → exec (.sendData len) s = .next { s with
      ph := .sendDataS2, st := 0, res := 0, dc := true, log := .lineDC true :: s.log }) ∧
    (s.ph = .sendDataS2 → exec (.sendData len) s = .next { s with
      ph := .sendDataS3, csel := true, idx := 0, log := .lineCS true :: s.log }) ∧
    (s.ph = .sendDataS3 → s.idx = len → exec (.sendData len) s = .next { s with ph := .sendDataS4 }) ∧
    (∀ byte, s.ph = .sendDataS3 → s.idx ≠ len → s.pay[s.idx.toNat]? = some byte → exec (.sendData len) s = .next { s with
      ph := .sendDataS3Tx byte, log := .payRd s.idx byte :: s.log }) ∧
    (s.ph = .sendDataS3 → s.idx ≠ len → s.pay.length ≤ s.idx.toNat → exec (.sendData len) s = .refused .payloadMissing) ∧
    (∀ byte, s.ph = .sendDataS3Tx byte → s.bus.head = some .ok → exec (.sendData len) s = .next { s with
      ph := .sendDataS3, idx := s.idx + 1, bus := s.bus.tail, log := .tx byte .ok :: s.log }) ∧
    (∀ byte, s.ph = .sendDataS3Tx byte → s.bus.head = some .fail → exec (.sendData len) s = .next { s with
      ph := .abortA1 .busError, bus := s.bus.tail, log := .tx byte .fail :: s.log }) ∧
    (∀ byte, s.ph = .sendDataS3Tx byte → s.bus.head = none → exec (.sendData len) s = .next { s with bus := s.bus.tail }) ∧
    (s.ph = .sendDataS4 → exec (.sendData len) s = .next { s with
      ph := .sendDataS5, csel := false, log := .lineCS false :: s.log }) ∧
    (s.ph = .sendDataS5 → exec (.sendData len) s = .next { s with ph := .idle, log := .rsp 0 0 :: s.log })

/-- R113: the micro-steps of `sendCommandWithData`, its acceptance, and `BusError` at the command byte and at a data byte. -/
def Obligations.SendCommandWithDataMicroSteps : Prop :=
  ∀ (code : Byte) (len : Word32) (s : State),
    (s.ph = .idle → exec (.sendCommandWithData code len) s = .next { s with
      ph := .sendCommandWithDataS1, opr := 0x03#8, a := code.setWidth 32, b := len, pay := presentedPayload s,
      req := s.req.tail, log := .req (encode (.sendCommandWithData code len)) :: s.log }) ∧
    (s.ph = .sendCommandWithDataS1 → exec (.sendCommandWithData code len) s = .next { s with
      ph := .sendCommandWithDataS2, st := 0, res := 0, dc := false, log := .lineDC false :: s.log }) ∧
    (s.ph = .sendCommandWithDataS2 → exec (.sendCommandWithData code len) s = .next { s with
      ph := .sendCommandWithDataS3, csel := true, idx := 0, log := .lineCS true :: s.log }) ∧
    (s.ph = .sendCommandWithDataS3 → s.bus.head = some .ok → exec (.sendCommandWithData code len) s = .next { s with
      ph := .sendCommandWithDataS4, bus := s.bus.tail, log := .tx code .ok :: s.log }) ∧
    (s.ph = .sendCommandWithDataS3 → s.bus.head = some .fail → exec (.sendCommandWithData code len) s = .next { s with
      ph := .abortA1 .busError, bus := s.bus.tail, log := .tx code .fail :: s.log }) ∧
    (s.ph = .sendCommandWithDataS3 → s.bus.head = none →
      exec (.sendCommandWithData code len) s = .next { s with bus := s.bus.tail }) ∧
    (s.ph = .sendCommandWithDataS4 → exec (.sendCommandWithData code len) s = .next { s with
      ph := .sendCommandWithDataS5, dc := true, log := .lineDC true :: s.log }) ∧
    (s.ph = .sendCommandWithDataS5 → s.idx = len →
      exec (.sendCommandWithData code len) s = .next { s with ph := .sendCommandWithDataS6 }) ∧
    (∀ byte, s.ph = .sendCommandWithDataS5 → s.idx ≠ len → s.pay[s.idx.toNat]? = some byte →
      exec (.sendCommandWithData code len) s = .next { s with
        ph := .sendCommandWithDataS5Tx byte, log := .payRd s.idx byte :: s.log }) ∧
    (s.ph = .sendCommandWithDataS5 → s.idx ≠ len → s.pay.length ≤ s.idx.toNat →
      exec (.sendCommandWithData code len) s = .refused .payloadMissing) ∧
    (∀ byte, s.ph = .sendCommandWithDataS5Tx byte → s.bus.head = some .ok →
      exec (.sendCommandWithData code len) s = .next { s with
        ph := .sendCommandWithDataS5, idx := s.idx + 1, bus := s.bus.tail, log := .tx byte .ok :: s.log }) ∧
    (∀ byte, s.ph = .sendCommandWithDataS5Tx byte → s.bus.head = some .fail →
      exec (.sendCommandWithData code len) s = .next { s with
        ph := .abortA1 .busError, bus := s.bus.tail, log := .tx byte .fail :: s.log }) ∧
    (∀ byte, s.ph = .sendCommandWithDataS5Tx byte → s.bus.head = none →
      exec (.sendCommandWithData code len) s = .next { s with bus := s.bus.tail }) ∧
    (s.ph = .sendCommandWithDataS6 → exec (.sendCommandWithData code len) s = .next { s with
      ph := .sendCommandWithDataS7, csel := false, log := .lineCS false :: s.log }) ∧
    (s.ph = .sendCommandWithDataS7 → exec (.sendCommandWithData code len) s = .next { s with
      ph := .idle, log := .rsp 0 0 :: s.log })

/-- R114: the micro-steps of `repeatByte`, its acceptance, and `BusError`. -/
def Obligations.RepeatByteMicroSteps : Prop :=
  ∀ (value : Byte) (count : Word32) (s : State),
    (s.ph = .idle → exec (.repeatByte value count) s = .next { s with
      ph := .repeatByteS1, opr := 0x04#8, a := value.setWidth 32, b := count, pay := presentedPayload s,
      req := s.req.tail, log := .req (encode (.repeatByte value count)) :: s.log }) ∧
    (s.ph = .repeatByteS1 → exec (.repeatByte value count) s = .next { s with
      ph := .repeatByteS2, st := 0, res := 0, dc := true, log := .lineDC true :: s.log }) ∧
    (s.ph = .repeatByteS2 → exec (.repeatByte value count) s = .next { s with
      ph := .repeatByteS3, csel := true, idx := 0, log := .lineCS true :: s.log }) ∧
    (s.ph = .repeatByteS3 → s.idx = count → exec (.repeatByte value count) s = .next { s with ph := .repeatByteS4 }) ∧
    (s.ph = .repeatByteS3 → s.idx ≠ count → s.bus.head = some .ok → exec (.repeatByte value count) s = .next { s with
      idx := s.idx + 1, bus := s.bus.tail, log := .tx value .ok :: s.log }) ∧
    (s.ph = .repeatByteS3 → s.idx ≠ count → s.bus.head = some .fail → exec (.repeatByte value count) s = .next { s with
      ph := .abortA1 .busError, bus := s.bus.tail, log := .tx value .fail :: s.log }) ∧
    (s.ph = .repeatByteS3 → s.idx ≠ count → s.bus.head = none →
      exec (.repeatByte value count) s = .next { s with bus := s.bus.tail }) ∧
    (s.ph = .repeatByteS4 → exec (.repeatByte value count) s = .next { s with
      ph := .repeatByteS5, csel := false, log := .lineCS false :: s.log }) ∧
    (s.ph = .repeatByteS5 → exec (.repeatByte value count) s = .next { s with ph := .idle, log := .rsp 0 0 :: s.log })

/-- R115: the micro-steps of `reset` and its acceptance; a delay that has not completed waits. The time a delay takes is not
modelled (R229; log entry 11). -/
def Obligations.ResetMicroSteps : Prop :=
  ∀ (low after : Word32) (s : State),
    (s.ph = .idle → exec (.reset low after) s = .next { s with
      ph := .resetS1, opr := 0x05#8, a := low, b := after, pay := presentedPayload s, req := s.req.tail,
      log := .req (encode (.reset low after)) :: s.log }) ∧
    (s.ph = .resetS1 → exec (.reset low after) s = .next { s with
      ph := .resetS2, st := 0, res := 0, rst := false, log := .lineRST false :: s.log }) ∧
    (s.ph = .resetS2 → s.dly.head = .completed → exec (.reset low after) s = .next { s with
      ph := .resetS3, dly := s.dly.tail, log := .dly low :: s.log }) ∧
    (s.ph = .resetS2 → s.dly.head = .pending → exec (.reset low after) s = .next { s with dly := s.dly.tail }) ∧
    (s.ph = .resetS3 → exec (.reset low after) s = .next { s with
      ph := .resetS4, rst := true, log := .lineRST true :: s.log }) ∧
    (s.ph = .resetS4 → s.dly.head = .completed → exec (.reset low after) s = .next { s with
      ph := .resetS5, dly := s.dly.tail, log := .dly after :: s.log }) ∧
    (s.ph = .resetS4 → s.dly.head = .pending → exec (.reset low after) s = .next { s with dly := s.dly.tail }) ∧
    (s.ph = .resetS5 → exec (.reset low after) s = .next { s with ph := .idle, log := .rsp 0 0 :: s.log })

/-- R116: the micro-steps of `waitUntilIdle` and its acceptance: an idle sample ends it, a busy one counts, saturating at
`2^32 - 1`, and raises `Timeout` when the count is a `WAIT_LIMIT` that is not 0. -/
def Obligations.WaitUntilIdleMicroSteps : Prop :=
  ∀ (p : Bool) (s : State),
    (s.ph = .idle → exec (.waitUntilIdle p) s = .next { s with
      ph := .waitUntilIdleS1, opr := 0x06#8, a := (if p then 1 else 0), b := 0, pay := presentedPayload s,
      req := s.req.tail, log := .req (encode (.waitUntilIdle p)) :: s.log }) ∧
    (s.ph = .waitUntilIdleS1 → exec (.waitUntilIdle p) s = .next { s with
      ph := .waitUntilIdleS2, st := 0, res := 0, npoll := 0 }) ∧
    (s.ph = .waitUntilIdleS2 → s.busy.head = p → exec (.waitUntilIdle p) s = .next { s with
      ph := .waitUntilIdleS3, busy := s.busy.tail, log := .smp s.busy.head :: s.log }) ∧
    (s.ph = .waitUntilIdleS2 → s.busy.head ≠ p → ∀ n : Word32, n.toNat = min (s.npoll.toNat + 1) (2 ^ 32 - 1) →
      (s.waitLimit = 0 ∨ n ≠ s.waitLimit → exec (.waitUntilIdle p) s = .next { s with
        npoll := n, busy := s.busy.tail, log := .smp s.busy.head :: s.log }) ∧
      (s.waitLimit ≠ 0 → n = s.waitLimit → exec (.waitUntilIdle p) s = .next { s with
        ph := .abortA1 .timeout, npoll := n, busy := s.busy.tail, log := .smp s.busy.head :: s.log })) ∧
    (s.ph = .waitUntilIdleS3 → exec (.waitUntilIdle p) s = .next { s with ph := .idle, log := .rsp 0 0 :: s.log })

/-- R151: the micro-steps of `computeWindow` and its acceptance: `InvalidWindow` for a zero dimension, the four fields where
they fit, no meaning (a refusal by name) where they do not (R155). -/
def Obligations.ComputeWindowMicroSteps : Prop :=
  ∀ (r : Rectangle) (s : State),
    (s.ph = .idle → exec (.computeWindow r) s = .next { s with
      ph := .computeWindowS1, opr := 0x07#8, a := r.y ++ r.x, b := r.height ++ r.width, pay := presentedPayload s,
      req := s.req.tail, log := .req (encode (.computeWindow r)) :: s.log }) ∧
    (s.ph = .computeWindowS1 → r.width = 0 ∨ r.height = 0 → exec (.computeWindow r) s = .next { s with
      ph := .abortA1 .invalidWindow, st := 0, res := 0 }) ∧
    (s.ph = .computeWindowS1 → r.width ≠ 0 → r.height ≠ 0 →
      (r.x.toNat + r.width.toNat - 1) >>> 3 ≤ 255 → r.y.toNat + r.height.toNat ≤ 65535 →
      exec (.computeWindow r) s = .next { s with
        ph := .computeWindowS2, st := 0,
        res := BitVec.ofNat 16 (r.y.toNat + r.height.toNat) ++ r.y ++
          BitVec.ofNat 8 ((r.x.toNat + r.width.toNat - 1) >>> 3) ++ BitVec.ofNat 8 (r.x.toNat >>> 3) }) ∧
    (s.ph = .computeWindowS1 → r.width ≠ 0 → r.height ≠ 0 →
      (255 < (r.x.toNat + r.width.toNat - 1) >>> 3 ∨ 65535 < r.y.toNat + r.height.toNat) →
      exec (.computeWindow r) s = .refused .resultOutOfRange) ∧
    (s.ph = .computeWindowS2 → exec (.computeWindow r) s = .next { s with
      ph := .idle, log := .rsp 0 s.res :: s.log })

/-- R154: the micro-steps of `computeCounter` and its acceptance; `x > 2047` has no meaning (R155) and is refused by name. -/
def Obligations.ComputeCounterMicroSteps : Prop :=
  ∀ (x y : Coord) (s : State),
    (s.ph = .idle → exec (.computeCounter x y) s = .next { s with
      ph := .computeCounterS1, opr := 0x08#8, a := y ++ x, b := 0, pay := presentedPayload s, req := s.req.tail,
      log := .req (encode (.computeCounter x y)) :: s.log }) ∧
    (s.ph = .computeCounterS1 → x.toNat ≤ 2047 → exec (.computeCounter x y) s = .next { s with
      ph := .computeCounterS2, st := 0,
      res := BitVec.ofNat 48 (x.toNat / 8 + 2 ^ 8 * (y.toNat % 2 ^ 8) + 2 ^ 16 * (y.toNat / 2 ^ 8)) }) ∧
    (s.ph = .computeCounterS1 → 2047 < x.toNat → exec (.computeCounter x y) s = .refused .resultOutOfRange) ∧
    (s.ph = .computeCounterS2 → exec (.computeCounter x y) s = .next { s with
      ph := .idle, log := .rsp 0 s.res :: s.log })

/-- R170: the micro-steps of `expand` and its acceptance: bits `2i` and `2i + 1` of the result equal bit `i` of the byte, and
the result has no other bit. -/
def Obligations.ExpandMicroSteps : Prop :=
  ∀ (byte : Byte) (s : State),
    (s.ph = .idle → exec (.expand byte) s = .next { s with
      ph := .expandS1, opr := 0x09#8, a := byte.setWidth 32, b := 0, pay := presentedPayload s, req := s.req.tail,
      log := .req (encode (.expand byte)) :: s.log }) ∧
    (s.ph = .expandS1 → ∃ v : BitVec 16,
      (∀ i, i < 8 → v.getLsbD (2 * i) = byte.getLsbD i ∧ v.getLsbD (2 * i + 1) = byte.getLsbD i) ∧
      exec (.expand byte) s = .next { s with ph := .expandS2, st := 0, res := v.setWidth 48 }) ∧
    (s.ph = .expandS2 → exec (.expand byte) s = .next { s with ph := .idle, log := .rsp 0 s.res :: s.log })

/-! ### Whole operations -/

/-- R111, R187: a whole `sendCommand`, with an `ok` answer and with a `fail` answer. -/
def Obligations.SendCommandRuns : Prop :=
  ∀ (s : State) (code : Byte) (payload : List Byte) (later : List Request),
    Presents s (.sendCommand code) payload later →
    (s.bus.head = some .ok → run 6 s = .next
      { ended s (encode (.sendCommand code)) payload later .ok 0
          [.lineDC false, .lineCS true, .tx code .ok, .lineCS false] with
        csel := false, dc := false, bus := s.bus.tail }) ∧
    (s.bus.head = some .fail → run 7 s = .next
      { ended s (encode (.sendCommand code)) payload later .busError 0
          [.lineDC false, .lineCS true, .tx code .fail, .lineCS false] with
        csel := false, dc := false, bus := s.bus.tail })

/-- R112, R119: a whole `sendData` of any length, zero too, when every transfer succeeds. -/
def Obligations.SendDataRuns : Prop :=
  ∀ (s : State) (len : Word32) (payload : List Byte) (later : List Request),
    Presents s (.sendData len) payload later → payload.length = len.toNat → allOk s.bus len.toNat →
    run (2 * len.toNat + 6) s = .next
      { ended s (encode (.sendData len)) payload later .ok 0
          ([.lineDC true, .lineCS true] ++ dataEvents 0 payload ++ [.lineCS false]) with
        csel := false, dc := true, idx := len, bus := s.bus.drop len.toNat }

/-- R65, R112, R121, R187: when byte `k` fails, bytes 0 to `k - 1` were transmitted, no later byte is read or transmitted,
chip-select is released and the response is `BusError`. -/
def Obligations.SendDataFails : Prop :=
  ∀ (s : State) (len : Word32) (payload : List Byte) (later : List Request) (k : Nat) (byte : Byte),
    Presents s (.sendData len) payload later → k < len.toNat → payload[k]? = some byte → failsAt s.bus k →
    run (2 * k + 8) s = .next
      { ended s (encode (.sendData len)) payload later .busError 0
          ([.lineDC true, .lineCS true] ++ dataEvents 0 (payload.take k) ++
            [.payRd (BitVec.ofNat 32 k) byte, .tx byte .fail, .lineCS false]) with
        csel := false, dc := true, idx := BitVec.ofNat 32 k, bus := s.bus.drop (k + 1) }

/-- R113, R119: a whole `sendCommandWithData` of any length: the command byte and the data bytes in one select window. -/
def Obligations.SendCommandWithDataRuns : Prop :=
  ∀ (s : State) (code : Byte) (len : Word32) (payload : List Byte) (later : List Request),
    Presents s (.sendCommandWithData code len) payload later → payload.length = len.toNat →
    allOk s.bus (len.toNat + 1) →
    run (2 * len.toNat + 8) s = .next
      { ended s (encode (.sendCommandWithData code len)) payload later .ok 0
          ([.lineDC false, .lineCS true, .tx code .ok, .lineDC true] ++ dataEvents 0 payload ++ [.lineCS false]) with
        csel := false, dc := true, idx := len, bus := s.bus.drop (len.toNat + 1) }

/-- R113, R187: when the command byte fails, no payload byte is read and `DC` stays 0; when data byte `k` fails, no later one is
read and `DC` stays 1. -/
def Obligations.SendCommandWithDataFails : Prop :=
  ∀ (s : State) (code : Byte) (len : Word32) (payload : List Byte) (later : List Request),
    Presents s (.sendCommandWithData code len) payload later →
    (s.bus.head = some .fail → run 7 s = .next
      { ended s (encode (.sendCommandWithData code len)) payload later .busError 0
          [.lineDC false, .lineCS true, .tx code .fail, .lineCS false] with
        csel := false, dc := false, idx := 0, bus := s.bus.tail }) ∧
    (∀ (k : Nat) (byte : Byte), k < len.toNat → payload[k]? = some byte → failsAt s.bus (k + 1) →
      run (2 * k + 10) s = .next
        { ended s (encode (.sendCommandWithData code len)) payload later .busError 0
            ([.lineDC false, .lineCS true, .tx code .ok, .lineDC true] ++ dataEvents 0 (payload.take k) ++
              [.payRd (BitVec.ofNat 32 k) byte, .tx byte .fail, .lineCS false]) with
          csel := false, dc := true, idx := BitVec.ofNat 32 k, bus := s.bus.drop (k + 2) })

/-- R114, R119: a whole `repeatByte` of any count: exactly `count` bytes of `value` as one data frame, and no payload read. -/
def Obligations.RepeatByteRuns : Prop :=
  ∀ (s : State) (value : Byte) (count : Word32) (payload : List Byte) (later : List Request),
    Presents s (.repeatByte value count) payload later → allOk s.bus count.toNat →
    run (count.toNat + 6) s = .next
      { ended s (encode (.repeatByte value count)) payload later .ok 0
          ([.lineDC true, .lineCS true] ++ List.replicate count.toNat (.tx value .ok) ++ [.lineCS false]) with
        csel := false, dc := true, idx := count, bus := s.bus.drop count.toNat }

/-- R114, R121, R187: when transfer `k` of a `repeatByte` fails, it is the last. -/
def Obligations.RepeatByteFails : Prop :=
  ∀ (s : State) (value : Byte) (count : Word32) (payload : List Byte) (later : List Request) (k : Nat),
    Presents s (.repeatByte value count) payload later → k < count.toNat → failsAt s.bus k →
    run (k + 7) s = .next
      { ended s (encode (.repeatByte value count)) payload later .busError 0
          ([.lineDC true, .lineCS true] ++ List.replicate k (.tx value .ok) ++ [.tx value .fail, .lineCS false]) with
        csel := false, dc := true, idx := BitVec.ofNat 32 k, bus := s.bus.drop (k + 1) }

/-- R115, R212: a whole `reset` when both delays complete at once: the panel's reset line low, a delay, high, a delay, `OK`; no
other line is touched. -/
def Obligations.ResetRuns : Prop :=
  ∀ (s : State) (low after : Word32) (payload : List Byte) (later : List Request),
    Presents s (.reset low after) payload later → s.dly.head = .completed → s.dly.tail.head = .completed →
    run 6 s = .next
      { ended s (encode (.reset low after)) payload later .ok 0 [.lineRST false, .dly low, .lineRST true, .dly after] with
        rst := true, dly := s.dly.drop 2 }

/-- R116: if the first `n` samples read busy and the next reads idle, exactly `n + 1` samples are taken and the answer is `OK`,
provided `WAIT_LIMIT = 0` or `n < WAIT_LIMIT`; no line is touched. -/
def Obligations.WaitAnswersAtFirstIdle : Prop :=
  ∀ (s : State) (p : Bool) (payload : List Byte) (later : List Request) (n : Nat),
    Presents s (.waitUntilIdle p) payload later → allBusy p s.busy n → busyState p (s.busy.drop n).head = false →
    (s.waitLimit = 0 ∨ n < s.waitLimit.toNat) →
    run (n + 4) s = .next
      { ended s (encode (.waitUntilIdle p)) payload later .ok 0 (pollEvents s.busy (n + 1)) with
        npoll := BitVec.ofNat 32 (min n (2 ^ 32 - 1)), busy := s.busy.drop (n + 1) }

/-- R116, R183: if the first `WAIT_LIMIT` samples all read busy, the answer is `Timeout` after exactly `WAIT_LIMIT` samples; no
line is touched. -/
def Obligations.WaitTimesOut : Prop :=
  ∀ (s : State) (p : Bool) (payload : List Byte) (later : List Request),
    Presents s (.waitUntilIdle p) payload later → s.csel = false → s.waitLimit ≠ 0 →
    allBusy p s.busy s.waitLimit.toNat →
    run (s.waitLimit.toNat + 5) s = .next
      { ended s (encode (.waitUntilIdle p)) payload later .timeout 0 (pollEvents s.busy s.waitLimit.toNat) with
        npoll := s.waitLimit, busy := s.busy.drop s.waitLimit.toNat }

/-- R116, R224 (U3): with `WAIT_LIMIT = 0` and a line that never reads idle, the operation samples for ever: after any number of
steps it is still at S2, has responded nothing, and the next request still waits. -/
def Obligations.UnboundedWaitHangs : Prop :=
  ∀ (s : State) (p : Bool) (payload : List Byte) (later : List Request),
    Presents s (.waitUntilIdle p) payload later → s.waitLimit = 0 → (∀ n, allBusy p s.busy n) →
    ∀ n, ∃ t, run (n + 2) s = .next t ∧ t.ph = .waitUntilIdleS2 ∧ t.req = later ∧
      t.trace = s.trace ++ [.req (encode (.waitUntilIdle p))] ++ pollEvents s.busy n

/-- R151, R157, R182, R186: a whole `computeWindow`: the response and nothing else; for a zero dimension, `InvalidWindow`
whatever the other operands are. -/
def Obligations.ComputeWindowRuns : Prop :=
  ∀ (s : State) (r : Rectangle) (payload : List Byte) (later : List Request),
    Presents s (.computeWindow r) payload later →
    (1 ≤ r.width.toNat → 1 ≤ r.height.toNat → r.x.toNat + r.width.toNat - 1 ≤ 2047 →
      r.y.toNat + r.height.toNat ≤ 65535 →
      run 3 s = .next (ended s (encode (.computeWindow r)) payload later .ok (windowResult r) [])) ∧
    (r.width = 0 ∨ r.height = 0 → s.csel = false →
      run 5 s = .next (ended s (encode (.computeWindow r)) payload later .invalidWindow 0 []))

/-- R154, R157: a whole `computeCounter` of a point in range, and R170, R175: a whole `expand`: the response and nothing else. -/
def Obligations.CounterAndExpandRun : Prop :=
  (∀ (s : State) (x y : Coord) (payload : List Byte) (later : List Request),
    Presents s (.computeCounter x y) payload later → x.toNat ≤ 2047 →
    run 3 s = .next (ended s (encode (.computeCounter x y)) payload later .ok (counterResult x y) [])) ∧
  (∀ (s : State) (byte : Byte) (payload : List Byte) (later : List Request),
    Presents s (.expand byte) payload later →
    run 3 s = .next (ended s (encode (.expand byte)) payload later .ok (expandResult byte) []))

/-- R122: `sendCommand(X); sendData([a, b, c])` produces two distinct frames in order. -/
def Obligations.TwoOperationsTwoFrames : Prop :=
  ∀ (s : State) (x a b c : Byte) (pay : List Byte) (later : List Request),
    s.ph = .idle → s.hrst = [] → allOk s.bus 4 →
    s.req = ⟨encode (.sendCommand x), pay⟩ :: ⟨encode (.sendData 3), [a, b, c]⟩ :: later →
    ∃ t, run 18 s = .next t ∧ t.ph = .idle ∧ t.csel = false ∧ t.dc = true ∧ t.rst = s.rst ∧ t.req = later ∧
      t.trace = s.trace ++
        [.req (encode (.sendCommand x)), .lineDC false, .lineCS true, .tx x .ok, .lineCS false, .rsp 0 0,
          .req (encode (.sendData 3)), .lineDC true, .lineCS true, .payRd 0 a, .tx a .ok, .payRd 1 b, .tx b .ok,
          .payRd 2 c, .tx c .ok, .lineCS false, .rsp 0 0]

/-! ### Frames -/

/-- What a micro-step of a framing operation leaves unchanged (R110, R118): `RST`, `NPOLL`, the busy line, the delay port,
`WAIT_LIMIT` and `hrst` always; the latches and both request ports except at acceptance; `DC` except at S1 (and S4 of
`sendCommandWithData`); `CSEL` except at S2, at the release and at A2; `IDX` except at S2 and after a byte, and always for
`sendCommand`; the bus except where a byte is handed to it; the response under assembly except at S1 and A1. -/
def Obligations.FramingFrame : Prop :=
  ∀ (i : Instr) (s t : State), isFraming i = true → exec i s = .next t →
    t.rst = s.rst ∧ t.npoll = s.npoll ∧ t.busy = s.busy ∧ t.dly = s.dly ∧ t.waitLimit = s.waitLimit ∧ t.hrst = s.hrst ∧
    (s.ph ≠ .idle → t.opr = s.opr ∧ t.a = s.a ∧ t.b = s.b ∧ t.req = s.req ∧ t.pay = s.pay) ∧
    (s.ph ∉ [.sendCommandS1, .sendDataS1, .sendCommandWithDataS1, .sendCommandWithDataS4, .repeatByteS1] → t.dc = s.dc) ∧
    (s.ph ∉ [.sendCommandS2, .sendCommandS4, .sendDataS2, .sendDataS4, .sendCommandWithDataS2, .sendCommandWithDataS6,
        .repeatByteS2, .repeatByteS4, .abortA2] → t.csel = s.csel) ∧
    ((s.ph ∉ [.sendDataS2, .sendCommandWithDataS2, .repeatByteS2, .repeatByteS3] ∧
        ∀ byte, s.ph ≠ .sendDataS3Tx byte ∧ s.ph ≠ .sendCommandWithDataS5Tx byte) → t.idx = s.idx) ∧
    (∀ code, i = .sendCommand code → t.idx = s.idx) ∧
    ((s.ph ∉ [.sendCommandS3, .sendCommandWithDataS3, .repeatByteS3] ∧
        ∀ byte, s.ph ≠ .sendDataS3Tx byte ∧ s.ph ≠ .sendCommandWithDataS5Tx byte) → t.bus = s.bus) ∧
    ((s.ph ∉ [.sendCommandS1, .sendDataS1, .sendCommandWithDataS1, .repeatByteS1] ∧ ∀ e, s.ph ≠ .abortA1 e) →
      t.st = s.st ∧ t.res = s.res)

/-- What a micro-step of `reset` or `waitUntilIdle` leaves unchanged (R115, R116, R118, R212): `DC`, `IDX` and the bus always;
`CSEL` always, with the invariant and the operation latched as premises at A2 only (in a state no run reaches, chip-select could
be asserted there and A2 would release it); `RST` always for `waitUntilIdle`, and except at S1 and S3 for `reset`; `NPOLL` and
the busy line for `reset`, the delay port for `waitUntilIdle`; the delay port, `NPOLL` and the busy line otherwise except where
the operation uses them; the response under assembly except at S1 and A1. -/
def Obligations.ResetAndWaitFrame : Prop :=
  (∀ (low after : Word32) (s t : State), exec (.reset low after) s = .next t →
    t.dc = s.dc ∧ t.idx = s.idx ∧ t.bus = s.bus ∧ t.npoll = s.npoll ∧ t.busy = s.busy ∧ t.waitLimit = s.waitLimit ∧
      t.hrst = s.hrst ∧ ((s.ph = .abortA2 → Consistent s ∧ decode (latchedWord s) = .instr (.reset low after)) → t.csel = s.csel) ∧ (s.ph ∉ [.resetS1, .resetS3] → t.rst = s.rst) ∧
      (s.ph ∉ [.resetS2, .resetS4] → t.dly = s.dly) ∧
      ((s.ph ≠ .resetS1 ∧ ∀ e, s.ph ≠ .abortA1 e) → t.st = s.st ∧ t.res = s.res) ∧
      (s.ph ≠ .idle → t.opr = s.opr ∧ t.a = s.a ∧ t.b = s.b ∧ t.req = s.req ∧ t.pay = s.pay)) ∧
  (∀ (p : Bool) (s t : State), exec (.waitUntilIdle p) s = .next t →
    t.dc = s.dc ∧ t.rst = s.rst ∧ t.idx = s.idx ∧ t.bus = s.bus ∧ t.dly = s.dly ∧ t.waitLimit = s.waitLimit ∧
      t.hrst = s.hrst ∧ ((s.ph = .abortA2 → Consistent s ∧ decode (latchedWord s) = .instr (.waitUntilIdle p)) → t.csel = s.csel) ∧
      (s.ph ∉ [.waitUntilIdleS1, .waitUntilIdleS2] → t.npoll = s.npoll) ∧
      (s.ph ≠ .waitUntilIdleS2 → t.busy = s.busy) ∧
      ((s.ph ≠ .waitUntilIdleS1 ∧ ∀ e, s.ph ≠ .abortA1 e) → t.st = s.st ∧ t.res = s.res) ∧
      (s.ph ≠ .idle → t.opr = s.opr ∧ t.a = s.a ∧ t.b = s.b ∧ t.req = s.req ∧ t.pay = s.pay))

/-- What a micro-step of `computeWindow`, `computeCounter` or `expand` leaves unchanged (R50, R157, R175, R187): every line,
`IDX`, `NPOLL` and every port but `REQ` and `RSP`, and the response under assembly except at S1 and A1; it emits no event but
`Req` and `Rsp`, and at A2 none. For `CSEL` and the events, A2 has the invariant and the operation latched as premises: in a
state no run reaches, chip-select could be asserted there and A2 would release it. -/
def Obligations.PureFrame : Prop :=
  ∀ (i : Instr) (s t : State), isPure i = true → exec i s = .next t →
    t.dc = s.dc ∧ t.rst = s.rst ∧ t.idx = s.idx ∧ t.npoll = s.npoll ∧ t.bus = s.bus ∧ t.busy = s.busy ∧ t.dly = s.dly ∧
    t.waitLimit = s.waitLimit ∧ t.hrst = s.hrst ∧ ((s.ph = .abortA2 → Consistent s ∧ decode (latchedWord s) = .instr i) → t.csel = s.csel) ∧
    ((s.ph ∉ [.computeWindowS1, .computeCounterS1, .expandS1] ∧ ∀ e, s.ph ≠ .abortA1 e) → t.st = s.st ∧ t.res = s.res) ∧
    (s.ph ≠ .idle → t.opr = s.opr ∧ t.a = s.a ∧ t.b = s.b ∧ t.req = s.req ∧ t.pay = s.pay) ∧
    ((s.ph = .abortA2 → Consistent s ∧ decode (latchedWord s) = .instr i) →
      t.trace = s.trace ∨ (s.ph = .idle ∧ t.trace = s.trace ++ [.req (encode i)]) ∨
        ∃ status result, t.trace = s.trace ++ [.rsp status result]) ∧
    (s.ph = .abortA2 → Consistent s → decode (latchedWord s) = .instr i → t.trace = s.trace)

/-! ### Values -/

/-- R152, R153: the byte window contains the requested columns and widens by at most 7 columns a side; for an `x` that is a
multiple of 8 by none on the left. -/
def Obligations.WindowContainsRequest : Prop :=
  ∀ r : Rectangle, 1 ≤ r.width.toNat →
    8 * windowXStart r ≤ r.x.toNat ∧ r.x.toNat + r.width.toNat - 1 ≤ 8 * windowXEnd r + 7 ∧
    windowXStart r ≤ windowXEnd r ∧ padLeft r ≤ 7 ∧ padRight r ≤ 7 ∧ (8 ∣ r.x.toNat → padLeft r = 0) ∧
    byteRoundedWidth r = padLeft r + r.width.toNat + padRight r

/-- R63, R153: the buffer a window needs is its bytes per row times its height, and never less than the requested width asks. -/
def Obligations.BufferSizedToRoundedWidth : Prop :=
  ∀ r : Rectangle, 1 ≤ r.width.toNat →
    bufferLength r = bytesPerRow r * r.height.toNat ∧ (r.width.toNat + 7) / 8 * r.height.toNat ≤ bufferLength r

/-- R156: for `x` a multiple of 8 the X bytes are exact quotients. -/
def Obligations.AlignedWindowExact : Prop :=
  ∀ r : Rectangle, 8 ∣ r.x.toNat →
    8 * windowXStart r = r.x.toNat ∧ windowXStart r = r.x.toNat / 8 ∧
      windowXEnd r = (r.x.toNat + r.width.toNat - 1) / 8

/-- R154 (its derived sentence): `computeCounter` of a rectangle's corner returns that window's X start byte and Y start. -/
def Obligations.CounterAgreesWithWindow : Prop :=
  ∀ r : Rectangle,
    (counterResult r.x r.y).extractLsb' 0 8 = (windowResult r).extractLsb' 0 8 ∧
    (counterResult r.x r.y).extractLsb' 8 16 = (windowResult r).extractLsb' 16 16

/-- R155: the fields fit exactly when `x + width - 1 <= 2047` and `y + height <= 65535` (`x <= 2047` for the counter), and for a
rectangle inside a panel within the bounds of R7 they always do. -/
def Obligations.PanelRectanglesFit : Prop :=
  (∀ r : Rectangle, windowFits r = true ↔
    r.x.toNat + r.width.toNat - 1 ≤ 2047 ∧ r.y.toNat + r.height.toNat ≤ 65535) ∧
  (∀ x : Coord, counterFits x = true ↔ x.toNat ≤ 2047) ∧
  (∀ (panelW panelH : Nat) (r : Rectangle), panelSizeOk panelW panelH → inPanel panelW panelH r →
    windowFits r = true ∧ (1 ≤ r.width.toNat → counterFits r.x = true))

/-- R87, R89, R56: where each field of a response lies, the low byte of a Y field below its high byte. -/
def Obligations.ResultFieldsPacked : Prop :=
  (∀ r : Rectangle, windowFits r = true → 1 ≤ r.width.toNat →
    ((windowResult r).extractLsb' 0 8).toNat = windowXStart r) ∧
  (∀ r : Rectangle, windowFits r = true →
    ((windowResult r).extractLsb' 8 8).toNat = windowXEnd r ∧
    (windowResult r).extractLsb' 16 8 = lowByte r.y ∧ (windowResult r).extractLsb' 24 8 = highByte r.y ∧
    ((windowResult r).extractLsb' 32 16).toNat = r.y.toNat + r.height.toNat) ∧
  (∀ x y : Coord, counterFits x = true →
    ((counterResult x y).extractLsb' 0 8).toNat = counterX x ∧ (counterResult x y).extractLsb' 8 8 = lowByte y ∧
    (counterResult x y).extractLsb' 16 8 = highByte y ∧ (counterResult x y).extractLsb' 24 24 = 0) ∧
  (∀ byte : Byte, (expandResult byte).extractLsb' 0 16 = expandValue byte ∧ (expandResult byte).extractLsb' 16 32 = 0) ∧
  (∀ (status : StatusBits) (result : ResultWord),
    (responseWord status result).extractLsb' 48 3 = status ∧ (responseWord status result).extractLsb' 0 48 = result)

/-- R172: taking every even bit of the expansion reconstructs the byte, and so does taking every odd bit. -/
def Obligations.ExpandRoundTrip : Prop :=
  ∀ (byte : Byte) (i : Nat), i < 8 →
    (expandValue byte).getLsbD (2 * i) = byte.getLsbD i ∧ (expandValue byte).getLsbD (2 * i + 1) = byte.getLsbD i

/-- R171: the mask algorithm gives the value of R170 for all inputs; its constants are general knowledge (PRESUMED, log entry
23). -/
def Obligations.MaskAlgorithmExpands : Prop := ∀ byte : Byte, expandByMasks byte = expandValue byte

/-- R174: the expansion is the nibble table of the high nibble, then of the low one. -/
def Obligations.NibbleTableExpands : Prop :=
  ∀ byte : Byte,
    expandValue byte = nibbleExpansion (byte.extractLsb' 4 4) ++ nibbleExpansion (byte.extractLsb' 0 4) ∧
    firstByte (expandValue byte) = nibbleExpansion (byte.extractLsb' 4 4) ∧
    secondByte (expandValue byte) = nibbleExpansion (byte.extractLsb' 0 4)

/-- R120: BusyState: `busy = (l != p)`. -/
def Obligations.BusyStateTable : Prop := ∀ (p : Bool) (l : Level), busyState p l = xor l p
end

