-- ==== Sys2Proof/Laws/Decode.lean ====
section
/-! SUPPORT. The request word taken apart and put together; when each row of the opcode table matches a word; the operand
fields of an operand word. Proofs cite these instead of unfolding masks. -/

namespace Sys2Proof

@[simp] theorem fieldOp_packRequest (op : Byte) (b a : Word32) : fieldOp (packRequest op b a) = op := by
  unfold fieldOp packRequest
  ext i hi
  simp
  grind

@[simp] theorem fieldB_packRequest (op : Byte) (b a : Word32) : fieldB (packRequest op b a) = b := by
  unfold fieldB packRequest
  ext i hi
  simp
  grind

@[simp] theorem fieldA_packRequest (op : Byte) (b a : Word32) : fieldA (packRequest op b a) = a := by
  unfold fieldA packRequest
  ext i hi
  simp
  grind

@[simp] theorem packRequest_fields (w : RequestWord) : packRequest (fieldOp w) (fieldB w) (fieldA w) = w := by
  unfold packRequest fieldOp fieldA fieldB
  ext i hi
  simp
  grind

theorem packRequest_inj (op op' : Byte) (b a b' a' : Word32) :
    packRequest op b a = packRequest op' b' a' ↔ op = op' ∧ b = b' ∧ a = a' := by
  constructor
  · intro h
    exact ⟨by simpa using congrArg fieldOp h, by simpa using congrArg fieldB h, by simpa using congrArg fieldA h⟩
  · rintro ⟨rfl, rfl, rfl⟩
    rfl

theorem packRequest_and (op op' : Byte) (b a b' a' : Word32) :
    packRequest op b a &&& packRequest op' b' a' = packRequest (op &&& op') (b &&& b') (a &&& a') := by
  unfold packRequest
  rw [← BitVec.and_append, ← BitVec.and_append]

/-- A row whose match and mask are given field by field matches a word field by field. -/
theorem hits_packRequest (m : String) (op op' mo : Byte) (b a b' a' mb ma : Word32) :
    (Row.mk m (packRequest op' b' a') (packRequest mo mb ma)).hits (packRequest op b a) =
      decide (op &&& mo = op' ∧ b &&& mb = b' ∧ a &&& ma = a') := by
  simp only [Row.hits, packRequest_and, packRequest_inj]

/-- A row whose mask covers the operation code, in terms of the three fields of any word. -/
theorem hits_fields (r : Row) (op : Byte) (mb ma : Word32)
    (h : r = ⟨r.mnemonic, packRequest op 0 0, packRequest 0xFF#8 mb ma⟩) (w : RequestWord) :
    r.hits w = decide (fieldOp w = op ∧ fieldB w &&& mb = 0 ∧ fieldA w &&& ma = 0) := by
  rw [h]
  conv_lhs => rw [← packRequest_fields w]
  rw [hits_packRequest]
  have : fieldOp w &&& 0xFF#8 = fieldOp w := by
    have h1 : (0xFF#8 : Byte) = BitVec.allOnes 8 := by decide
    rw [h1, BitVec.and_allOnes]
  rw [this]

theorem and_allOnes32 (v : Word32) : v &&& 0xFFFFFFFF#32 = v := by
  have h1 : (0xFFFFFFFF#32 : Word32) = BitVec.allOnes 32 := by decide
  rw [h1, BitVec.and_allOnes]

theorem hits_sendCommand (w : RequestWord) :
    rowSendCommand.hits w = decide (fieldOp w = 0x01#8 ∧ fieldB w = 0 ∧ fieldA w &&& 0xFFFFFF00#32 = 0) := by
  rw [hits_fields rowSendCommand 0x01#8 0xFFFFFFFF#32 0xFFFFFF00#32 (by decide), and_allOnes32]

theorem hits_sendData (w : RequestWord) :
    rowSendData.hits w = decide (fieldOp w = 0x02#8 ∧ fieldA w = 0) := by
  rw [hits_fields rowSendData 0x02#8 0#32 0xFFFFFFFF#32 (by decide), and_allOnes32]
  simp

theorem hits_sendCommandWithData (w : RequestWord) :
    rowSendCommandWithData.hits w = decide (fieldOp w = 0x03#8 ∧ fieldA w &&& 0xFFFFFF00#32 = 0) := by
  rw [hits_fields rowSendCommandWithData 0x03#8 0#32 0xFFFFFF00#32 (by decide)]
  simp

theorem hits_repeatByte (w : RequestWord) :
    rowRepeatByte.hits w = decide (fieldOp w = 0x04#8 ∧ fieldA w &&& 0xFFFFFF00#32 = 0) := by
  rw [hits_fields rowRepeatByte 0x04#8 0#32 0xFFFFFF00#32 (by decide)]
  simp

theorem hits_reset (w : RequestWord) : rowReset.hits w = decide (fieldOp w = 0x05#8) := by
  rw [hits_fields rowReset 0x05#8 0#32 0#32 (by decide)]
  simp

theorem hits_waitUntilIdle (w : RequestWord) :
    rowWaitUntilIdle.hits w = decide (fieldOp w = 0x06#8 ∧ fieldB w = 0 ∧ fieldA w &&& 0xFFFFFFFE#32 = 0) := by
  rw [hits_fields rowWaitUntilIdle 0x06#8 0xFFFFFFFF#32 0xFFFFFFFE#32 (by decide), and_allOnes32]

theorem hits_computeWindow (w : RequestWord) : rowComputeWindow.hits w = decide (fieldOp w = 0x07#8) := by
  rw [hits_fields rowComputeWindow 0x07#8 0#32 0#32 (by decide)]
  simp

theorem hits_computeCounter (w : RequestWord) :
    rowComputeCounter.hits w = decide (fieldOp w = 0x08#8 ∧ fieldB w = 0) := by
  rw [hits_fields rowComputeCounter 0x08#8 0xFFFFFFFF#32 0#32 (by decide), and_allOnes32]
  simp

theorem hits_expand (w : RequestWord) :
    rowExpand.hits w = decide (fieldOp w = 0x09#8 ∧ fieldB w = 0 ∧ fieldA w &&& 0xFFFFFF00#32 = 0) := by
  rw [hits_fields rowExpand 0x09#8 0xFFFFFFFF#32 0xFFFFFF00#32 (by decide), and_allOnes32]

/-- The operand fields of a word lie in its operand words (R82). -/
theorem fieldByte_eq (w : RequestWord) : fieldByte w = (fieldA w).extractLsb' 0 8 := by
  unfold fieldByte fieldA
  ext i hi
  simp

theorem fieldFlag_eq (w : RequestWord) : fieldFlag w = (fieldA w)[0] := by
  simp [fieldFlag, fieldA]

theorem fieldX_eq (w : RequestWord) : fieldX w = (fieldA w).extractLsb' 0 16 := by
  unfold fieldX fieldA
  ext i hi
  simp

theorem fieldY_eq (w : RequestWord) : fieldY w = (fieldA w).extractLsb' 16 16 := by
  unfold fieldY fieldA
  ext i hi
  simp

theorem fieldWidth_eq (w : RequestWord) : fieldWidth w = (fieldB w).extractLsb' 0 16 := by
  unfold fieldWidth fieldB
  ext i hi
  simp
  grind

theorem fieldHeight_eq (w : RequestWord) : fieldHeight w = (fieldB w).extractLsb' 16 16 := by
  unfold fieldHeight fieldB
  ext i hi
  simp
  grind

/-- A byte in an operand word leaves the must-be-zero bits 0 and is read back whole. -/
theorem byteOperand_mask (c : Byte) : (c.setWidth 32 : Word32) &&& 0xFFFFFF00#32 = 0 := by
  ext i hi
  simp
  intro h
  interval_cases i <;> simp_all

@[simp] theorem byteOperand_field (c : Byte) : (c.setWidth 32 : Word32).extractLsb' 0 8 = c := by
  ext i hi
  simp
  grind

/-- A word whose must-be-zero bits are 0 is its low byte. -/
theorem byteOperand_of_mask (a : Word32) (h : a &&& 0xFFFFFF00#32 = 0) :
    ((a.extractLsb' 0 8 : Byte).setWidth 32 : Word32) = a := by
  ext i hi
  have hb := congrArg (fun v : Word32 => v.getLsbD i) h
  simp at hb ⊢
  interval_cases i <;> simp_all [BitVec.getLsbD_eq_getElem]

@[simp] theorem flagOperand_field (flag : Bool) : ((BitVec.ofBool flag).setWidth 32 : Word32)[0] = flag := by
  cases flag <;> decide

theorem flagOperand_mask (flag : Bool) : ((BitVec.ofBool flag).setWidth 32 : Word32) &&& 0xFFFFFFFE#32 = 0 := by
  cases flag <;> decide

/-- A word whose must-be-zero bits are 0 is its low bit. -/
theorem flagOperand_of_mask (a : Word32) (h : a &&& 0xFFFFFFFE#32 = 0) :
    ((BitVec.ofBool a[0]).setWidth 32 : Word32) = a := by
  ext i hi
  have hb := congrArg (fun v : Word32 => v.getLsbD i) h
  simp at hb ⊢
  interval_cases i <;> simp_all [BitVec.getLsbD_eq_getElem]

@[simp] theorem pairOperand_low (hi lo : Coord) : (hi ++ lo : Word32).extractLsb' 0 16 = lo := by
  ext i h
  simp
  grind

@[simp] theorem pairOperand_high (hi lo : Coord) : (hi ++ lo : Word32).extractLsb' 16 16 = hi := by
  ext i h
  simp
  grind

@[simp] theorem pairOperand_eta (v : Word32) : (v.extractLsb' 16 16 ++ v.extractLsb' 0 16 : Word32) = v := by
  ext i h
  simp
  grind

@[simp] theorem fieldOp_encode (i : Instr) : fieldOp (encode i) = i.opcode := by simp [encode]

@[simp] theorem fieldA_encode (i : Instr) : fieldA (encode i) = i.operandA := by simp [encode]

@[simp] theorem fieldB_encode (i : Instr) : fieldB (encode i) = i.operandB := by simp [encode]

end Sys2Proof
end

