-- ==== Sys2Proof/Laws/State.lean ====
section
/-! SUPPORT. One lemma per field per update, true by definition: no later proof unfolds a record update. -/

namespace Sys2Proof.Machine

@[simp] theorem goto_csel (p : Phase) (s : State) : (goto p s).csel = s.csel := rfl
@[simp] theorem goto_dc (p : Phase) (s : State) : (goto p s).dc = s.dc := rfl
@[simp] theorem goto_rst (p : Phase) (s : State) : (goto p s).rst = s.rst := rfl
@[simp] theorem goto_ph (p : Phase) (s : State) : (goto p s).ph = p := rfl
@[simp] theorem goto_opr (p : Phase) (s : State) : (goto p s).opr = s.opr := rfl
@[simp] theorem goto_a (p : Phase) (s : State) : (goto p s).a = s.a := rfl
@[simp] theorem goto_b (p : Phase) (s : State) : (goto p s).b = s.b := rfl
@[simp] theorem goto_idx (p : Phase) (s : State) : (goto p s).idx = s.idx := rfl
@[simp] theorem goto_npoll (p : Phase) (s : State) : (goto p s).npoll = s.npoll := rfl
@[simp] theorem goto_st (p : Phase) (s : State) : (goto p s).st = s.st := rfl
@[simp] theorem goto_res (p : Phase) (s : State) : (goto p s).res = s.res := rfl
@[simp] theorem goto_waitLimit (p : Phase) (s : State) : (goto p s).waitLimit = s.waitLimit := rfl
@[simp] theorem goto_req (p : Phase) (s : State) : (goto p s).req = s.req := rfl
@[simp] theorem goto_pay (p : Phase) (s : State) : (goto p s).pay = s.pay := rfl
@[simp] theorem goto_bus (p : Phase) (s : State) : (goto p s).bus = s.bus := rfl
@[simp] theorem goto_busy (p : Phase) (s : State) : (goto p s).busy = s.busy := rfl
@[simp] theorem goto_dly (p : Phase) (s : State) : (goto p s).dly = s.dly := rfl
@[simp] theorem goto_hrst (p : Phase) (s : State) : (goto p s).hrst = s.hrst := rfl
@[simp] theorem goto_log (p : Phase) (s : State) : (goto p s).log = s.log := rfl

@[simp] theorem emit_csel (e : Event) (s : State) : (emit e s).csel = s.csel := rfl
@[simp] theorem emit_dc (e : Event) (s : State) : (emit e s).dc = s.dc := rfl
@[simp] theorem emit_rst (e : Event) (s : State) : (emit e s).rst = s.rst := rfl
@[simp] theorem emit_ph (e : Event) (s : State) : (emit e s).ph = s.ph := rfl
@[simp] theorem emit_opr (e : Event) (s : State) : (emit e s).opr = s.opr := rfl
@[simp] theorem emit_a (e : Event) (s : State) : (emit e s).a = s.a := rfl
@[simp] theorem emit_b (e : Event) (s : State) : (emit e s).b = s.b := rfl
@[simp] theorem emit_idx (e : Event) (s : State) : (emit e s).idx = s.idx := rfl
@[simp] theorem emit_npoll (e : Event) (s : State) : (emit e s).npoll = s.npoll := rfl
@[simp] theorem emit_st (e : Event) (s : State) : (emit e s).st = s.st := rfl
@[simp] theorem emit_res (e : Event) (s : State) : (emit e s).res = s.res := rfl
@[simp] theorem emit_waitLimit (e : Event) (s : State) : (emit e s).waitLimit = s.waitLimit := rfl
@[simp] theorem emit_req (e : Event) (s : State) : (emit e s).req = s.req := rfl
@[simp] theorem emit_pay (e : Event) (s : State) : (emit e s).pay = s.pay := rfl
@[simp] theorem emit_bus (e : Event) (s : State) : (emit e s).bus = s.bus := rfl
@[simp] theorem emit_busy (e : Event) (s : State) : (emit e s).busy = s.busy := rfl
@[simp] theorem emit_dly (e : Event) (s : State) : (emit e s).dly = s.dly := rfl
@[simp] theorem emit_hrst (e : Event) (s : State) : (emit e s).hrst = s.hrst := rfl
@[simp] theorem emit_log (e : Event) (s : State) : (emit e s).log = e :: s.log := rfl

@[simp] theorem startOperation_csel (s : State) : (startOperation s).csel = s.csel := rfl
@[simp] theorem startOperation_dc (s : State) : (startOperation s).dc = s.dc := rfl
@[simp] theorem startOperation_rst (s : State) : (startOperation s).rst = s.rst := rfl
@[simp] theorem startOperation_ph (s : State) : (startOperation s).ph = s.ph := rfl
@[simp] theorem startOperation_opr (s : State) : (startOperation s).opr = s.opr := rfl
@[simp] theorem startOperation_a (s : State) : (startOperation s).a = s.a := rfl
@[simp] theorem startOperation_b (s : State) : (startOperation s).b = s.b := rfl
@[simp] theorem startOperation_idx (s : State) : (startOperation s).idx = s.idx := rfl
@[simp] theorem startOperation_npoll (s : State) : (startOperation s).npoll = s.npoll := rfl
@[simp] theorem startOperation_st (s : State) : (startOperation s).st = statusCode .ok := rfl
@[simp] theorem startOperation_res (s : State) : (startOperation s).res = 0 := rfl
@[simp] theorem startOperation_waitLimit (s : State) : (startOperation s).waitLimit = s.waitLimit := rfl
@[simp] theorem startOperation_req (s : State) : (startOperation s).req = s.req := rfl
@[simp] theorem startOperation_pay (s : State) : (startOperation s).pay = s.pay := rfl
@[simp] theorem startOperation_bus (s : State) : (startOperation s).bus = s.bus := rfl
@[simp] theorem startOperation_busy (s : State) : (startOperation s).busy = s.busy := rfl
@[simp] theorem startOperation_dly (s : State) : (startOperation s).dly = s.dly := rfl
@[simp] theorem startOperation_hrst (s : State) : (startOperation s).hrst = s.hrst := rfl
@[simp] theorem startOperation_log (s : State) : (startOperation s).log = s.log := rfl

@[simp] theorem setResult_csel (v : ResultWord) (s : State) : (setResult v s).csel = s.csel := rfl
@[simp] theorem setResult_dc (v : ResultWord) (s : State) : (setResult v s).dc = s.dc := rfl
@[simp] theorem setResult_rst (v : ResultWord) (s : State) : (setResult v s).rst = s.rst := rfl
@[simp] theorem setResult_ph (v : ResultWord) (s : State) : (setResult v s).ph = s.ph := rfl
@[simp] theorem setResult_opr (v : ResultWord) (s : State) : (setResult v s).opr = s.opr := rfl
@[simp] theorem setResult_a (v : ResultWord) (s : State) : (setResult v s).a = s.a := rfl
@[simp] theorem setResult_b (v : ResultWord) (s : State) : (setResult v s).b = s.b := rfl
@[simp] theorem setResult_idx (v : ResultWord) (s : State) : (setResult v s).idx = s.idx := rfl
@[simp] theorem setResult_npoll (v : ResultWord) (s : State) : (setResult v s).npoll = s.npoll := rfl
@[simp] theorem setResult_st (v : ResultWord) (s : State) : (setResult v s).st = s.st := rfl
@[simp] theorem setResult_res (v : ResultWord) (s : State) : (setResult v s).res = v := rfl
@[simp] theorem setResult_waitLimit (v : ResultWord) (s : State) : (setResult v s).waitLimit = s.waitLimit := rfl
@[simp] theorem setResult_req (v : ResultWord) (s : State) : (setResult v s).req = s.req := rfl
@[simp] theorem setResult_pay (v : ResultWord) (s : State) : (setResult v s).pay = s.pay := rfl
@[simp] theorem setResult_bus (v : ResultWord) (s : State) : (setResult v s).bus = s.bus := rfl
@[simp] theorem setResult_busy (v : ResultWord) (s : State) : (setResult v s).busy = s.busy := rfl
@[simp] theorem setResult_dly (v : ResultWord) (s : State) : (setResult v s).dly = s.dly := rfl
@[simp] theorem setResult_hrst (v : ResultWord) (s : State) : (setResult v s).hrst = s.hrst := rfl
@[simp] theorem setResult_log (v : ResultWord) (s : State) : (setResult v s).log = s.log := rfl

@[simp] theorem writeDC_csel (l : Level) (s : State) : (writeDC l s).csel = s.csel := rfl
@[simp] theorem writeDC_dc (l : Level) (s : State) : (writeDC l s).dc = l := rfl
@[simp] theorem writeDC_rst (l : Level) (s : State) : (writeDC l s).rst = s.rst := rfl
@[simp] theorem writeDC_ph (l : Level) (s : State) : (writeDC l s).ph = s.ph := rfl
@[simp] theorem writeDC_opr (l : Level) (s : State) : (writeDC l s).opr = s.opr := rfl
@[simp] theorem writeDC_a (l : Level) (s : State) : (writeDC l s).a = s.a := rfl
@[simp] theorem writeDC_b (l : Level) (s : State) : (writeDC l s).b = s.b := rfl
@[simp] theorem writeDC_idx (l : Level) (s : State) : (writeDC l s).idx = s.idx := rfl
@[simp] theorem writeDC_npoll (l : Level) (s : State) : (writeDC l s).npoll = s.npoll := rfl
@[simp] theorem writeDC_st (l : Level) (s : State) : (writeDC l s).st = s.st := rfl
@[simp] theorem writeDC_res (l : Level) (s : State) : (writeDC l s).res = s.res := rfl
@[simp] theorem writeDC_waitLimit (l : Level) (s : State) : (writeDC l s).waitLimit = s.waitLimit := rfl
@[simp] theorem writeDC_req (l : Level) (s : State) : (writeDC l s).req = s.req := rfl
@[simp] theorem writeDC_pay (l : Level) (s : State) : (writeDC l s).pay = s.pay := rfl
@[simp] theorem writeDC_bus (l : Level) (s : State) : (writeDC l s).bus = s.bus := rfl
@[simp] theorem writeDC_busy (l : Level) (s : State) : (writeDC l s).busy = s.busy := rfl
@[simp] theorem writeDC_dly (l : Level) (s : State) : (writeDC l s).dly = s.dly := rfl
@[simp] theorem writeDC_hrst (l : Level) (s : State) : (writeDC l s).hrst = s.hrst := rfl
@[simp] theorem writeDC_log (l : Level) (s : State) : (writeDC l s).log = .lineDC l :: s.log := rfl

@[simp] theorem writeCS_csel (l : Bool) (s : State) : (writeCS l s).csel = l := rfl
@[simp] theorem writeCS_dc (l : Bool) (s : State) : (writeCS l s).dc = s.dc := rfl
@[simp] theorem writeCS_rst (l : Bool) (s : State) : (writeCS l s).rst = s.rst := rfl
@[simp] theorem writeCS_ph (l : Bool) (s : State) : (writeCS l s).ph = s.ph := rfl
@[simp] theorem writeCS_opr (l : Bool) (s : State) : (writeCS l s).opr = s.opr := rfl
@[simp] theorem writeCS_a (l : Bool) (s : State) : (writeCS l s).a = s.a := rfl
@[simp] theorem writeCS_b (l : Bool) (s : State) : (writeCS l s).b = s.b := rfl
@[simp] theorem writeCS_idx (l : Bool) (s : State) : (writeCS l s).idx = s.idx := rfl
@[simp] theorem writeCS_npoll (l : Bool) (s : State) : (writeCS l s).npoll = s.npoll := rfl
@[simp] theorem writeCS_st (l : Bool) (s : State) : (writeCS l s).st = s.st := rfl
@[simp] theorem writeCS_res (l : Bool) (s : State) : (writeCS l s).res = s.res := rfl
@[simp] theorem writeCS_waitLimit (l : Bool) (s : State) : (writeCS l s).waitLimit = s.waitLimit := rfl
@[simp] theorem writeCS_req (l : Bool) (s : State) : (writeCS l s).req = s.req := rfl
@[simp] theorem writeCS_pay (l : Bool) (s : State) : (writeCS l s).pay = s.pay := rfl
@[simp] theorem writeCS_bus (l : Bool) (s : State) : (writeCS l s).bus = s.bus := rfl
@[simp] theorem writeCS_busy (l : Bool) (s : State) : (writeCS l s).busy = s.busy := rfl
@[simp] theorem writeCS_dly (l : Bool) (s : State) : (writeCS l s).dly = s.dly := rfl
@[simp] theorem writeCS_hrst (l : Bool) (s : State) : (writeCS l s).hrst = s.hrst := rfl
@[simp] theorem writeCS_log (l : Bool) (s : State) : (writeCS l s).log = .lineCS l :: s.log := rfl

@[simp] theorem writeRST_csel (l : Level) (s : State) : (writeRST l s).csel = s.csel := rfl
@[simp] theorem writeRST_dc (l : Level) (s : State) : (writeRST l s).dc = s.dc := rfl
@[simp] theorem writeRST_rst (l : Level) (s : State) : (writeRST l s).rst = l := rfl
@[simp] theorem writeRST_ph (l : Level) (s : State) : (writeRST l s).ph = s.ph := rfl
@[simp] theorem writeRST_opr (l : Level) (s : State) : (writeRST l s).opr = s.opr := rfl
@[simp] theorem writeRST_a (l : Level) (s : State) : (writeRST l s).a = s.a := rfl
@[simp] theorem writeRST_b (l : Level) (s : State) : (writeRST l s).b = s.b := rfl
@[simp] theorem writeRST_idx (l : Level) (s : State) : (writeRST l s).idx = s.idx := rfl
@[simp] theorem writeRST_npoll (l : Level) (s : State) : (writeRST l s).npoll = s.npoll := rfl
@[simp] theorem writeRST_st (l : Level) (s : State) : (writeRST l s).st = s.st := rfl
@[simp] theorem writeRST_res (l : Level) (s : State) : (writeRST l s).res = s.res := rfl
@[simp] theorem writeRST_waitLimit (l : Level) (s : State) : (writeRST l s).waitLimit = s.waitLimit := rfl
@[simp] theorem writeRST_req (l : Level) (s : State) : (writeRST l s).req = s.req := rfl
@[simp] theorem writeRST_pay (l : Level) (s : State) : (writeRST l s).pay = s.pay := rfl
@[simp] theorem writeRST_bus (l : Level) (s : State) : (writeRST l s).bus = s.bus := rfl
@[simp] theorem writeRST_busy (l : Level) (s : State) : (writeRST l s).busy = s.busy := rfl
@[simp] theorem writeRST_dly (l : Level) (s : State) : (writeRST l s).dly = s.dly := rfl
@[simp] theorem writeRST_hrst (l : Level) (s : State) : (writeRST l s).hrst = s.hrst := rfl
@[simp] theorem writeRST_log (l : Level) (s : State) : (writeRST l s).log = .lineRST l :: s.log := rfl

@[simp] theorem setIndex_csel (v : Word32) (s : State) : (setIndex v s).csel = s.csel := rfl
@[simp] theorem setIndex_dc (v : Word32) (s : State) : (setIndex v s).dc = s.dc := rfl
@[simp] theorem setIndex_rst (v : Word32) (s : State) : (setIndex v s).rst = s.rst := rfl
@[simp] theorem setIndex_ph (v : Word32) (s : State) : (setIndex v s).ph = s.ph := rfl
@[simp] theorem setIndex_opr (v : Word32) (s : State) : (setIndex v s).opr = s.opr := rfl
@[simp] theorem setIndex_a (v : Word32) (s : State) : (setIndex v s).a = s.a := rfl
@[simp] theorem setIndex_b (v : Word32) (s : State) : (setIndex v s).b = s.b := rfl
@[simp] theorem setIndex_idx (v : Word32) (s : State) : (setIndex v s).idx = v := rfl
@[simp] theorem setIndex_npoll (v : Word32) (s : State) : (setIndex v s).npoll = s.npoll := rfl
@[simp] theorem setIndex_st (v : Word32) (s : State) : (setIndex v s).st = s.st := rfl
@[simp] theorem setIndex_res (v : Word32) (s : State) : (setIndex v s).res = s.res := rfl
@[simp] theorem setIndex_waitLimit (v : Word32) (s : State) : (setIndex v s).waitLimit = s.waitLimit := rfl
@[simp] theorem setIndex_req (v : Word32) (s : State) : (setIndex v s).req = s.req := rfl
@[simp] theorem setIndex_pay (v : Word32) (s : State) : (setIndex v s).pay = s.pay := rfl
@[simp] theorem setIndex_bus (v : Word32) (s : State) : (setIndex v s).bus = s.bus := rfl
@[simp] theorem setIndex_busy (v : Word32) (s : State) : (setIndex v s).busy = s.busy := rfl
@[simp] theorem setIndex_dly (v : Word32) (s : State) : (setIndex v s).dly = s.dly := rfl
@[simp] theorem setIndex_hrst (v : Word32) (s : State) : (setIndex v s).hrst = s.hrst := rfl
@[simp] theorem setIndex_log (v : Word32) (s : State) : (setIndex v s).log = s.log := rfl

@[simp] theorem setPolls_csel (v : Word32) (s : State) : (setPolls v s).csel = s.csel := rfl
@[simp] theorem setPolls_dc (v : Word32) (s : State) : (setPolls v s).dc = s.dc := rfl
@[simp] theorem setPolls_rst (v : Word32) (s : State) : (setPolls v s).rst = s.rst := rfl
@[simp] theorem setPolls_ph (v : Word32) (s : State) : (setPolls v s).ph = s.ph := rfl
@[simp] theorem setPolls_opr (v : Word32) (s : State) : (setPolls v s).opr = s.opr := rfl
@[simp] theorem setPolls_a (v : Word32) (s : State) : (setPolls v s).a = s.a := rfl
@[simp] theorem setPolls_b (v : Word32) (s : State) : (setPolls v s).b = s.b := rfl
@[simp] theorem setPolls_idx (v : Word32) (s : State) : (setPolls v s).idx = s.idx := rfl
@[simp] theorem setPolls_npoll (v : Word32) (s : State) : (setPolls v s).npoll = v := rfl
@[simp] theorem setPolls_st (v : Word32) (s : State) : (setPolls v s).st = s.st := rfl
@[simp] theorem setPolls_res (v : Word32) (s : State) : (setPolls v s).res = s.res := rfl
@[simp] theorem setPolls_waitLimit (v : Word32) (s : State) : (setPolls v s).waitLimit = s.waitLimit := rfl
@[simp] theorem setPolls_req (v : Word32) (s : State) : (setPolls v s).req = s.req := rfl
@[simp] theorem setPolls_pay (v : Word32) (s : State) : (setPolls v s).pay = s.pay := rfl
@[simp] theorem setPolls_bus (v : Word32) (s : State) : (setPolls v s).bus = s.bus := rfl
@[simp] theorem setPolls_busy (v : Word32) (s : State) : (setPolls v s).busy = s.busy := rfl
@[simp] theorem setPolls_dly (v : Word32) (s : State) : (setPolls v s).dly = s.dly := rfl
@[simp] theorem setPolls_hrst (v : Word32) (s : State) : (setPolls v s).hrst = s.hrst := rfl
@[simp] theorem setPolls_log (v : Word32) (s : State) : (setPolls v s).log = s.log := rfl

@[simp] theorem respond_csel (st : StatusBits) (r : ResultWord) (s : State) : (respond st r s).csel = s.csel := rfl
@[simp] theorem respond_dc (st : StatusBits) (r : ResultWord) (s : State) : (respond st r s).dc = s.dc := rfl
@[simp] theorem respond_rst (st : StatusBits) (r : ResultWord) (s : State) : (respond st r s).rst = s.rst := rfl
@[simp] theorem respond_ph (st : StatusBits) (r : ResultWord) (s : State) : (respond st r s).ph = .idle := rfl
@[simp] theorem respond_opr (st : StatusBits) (r : ResultWord) (s : State) : (respond st r s).opr = s.opr := rfl
@[simp] theorem respond_a (st : StatusBits) (r : ResultWord) (s : State) : (respond st r s).a = s.a := rfl
@[simp] theorem respond_b (st : StatusBits) (r : ResultWord) (s : State) : (respond st r s).b = s.b := rfl
@[simp] theorem respond_idx (st : StatusBits) (r : ResultWord) (s : State) : (respond st r s).idx = s.idx := rfl
@[simp] theorem respond_npoll (st : StatusBits) (r : ResultWord) (s : State) : (respond st r s).npoll = s.npoll := rfl
@[simp] theorem respond_st (st : StatusBits) (r : ResultWord) (s : State) : (respond st r s).st = s.st := rfl
@[simp] theorem respond_res (st : StatusBits) (r : ResultWord) (s : State) : (respond st r s).res = s.res := rfl
@[simp] theorem respond_waitLimit (st : StatusBits) (r : ResultWord) (s : State) :
    (respond st r s).waitLimit = s.waitLimit := rfl
@[simp] theorem respond_req (st : StatusBits) (r : ResultWord) (s : State) : (respond st r s).req = s.req := rfl
@[simp] theorem respond_pay (st : StatusBits) (r : ResultWord) (s : State) : (respond st r s).pay = s.pay := rfl
@[simp] theorem respond_bus (st : StatusBits) (r : ResultWord) (s : State) : (respond st r s).bus = s.bus := rfl
@[simp] theorem respond_busy (st : StatusBits) (r : ResultWord) (s : State) : (respond st r s).busy = s.busy := rfl
@[simp] theorem respond_dly (st : StatusBits) (r : ResultWord) (s : State) : (respond st r s).dly = s.dly := rfl
@[simp] theorem respond_hrst (st : StatusBits) (r : ResultWord) (s : State) : (respond st r s).hrst = s.hrst := rfl
@[simp] theorem respond_log (st : StatusBits) (r : ResultWord) (s : State) :
    (respond st r s).log = .rsp st r :: s.log := rfl

@[simp] theorem raise_csel (e : Status) (s : State) : (raise e s).csel = s.csel := rfl
@[simp] theorem raise_dc (e : Status) (s : State) : (raise e s).dc = s.dc := rfl
@[simp] theorem raise_rst (e : Status) (s : State) : (raise e s).rst = s.rst := rfl
@[simp] theorem raise_ph (e : Status) (s : State) : (raise e s).ph = .abortA1 e := rfl
@[simp] theorem raise_opr (e : Status) (s : State) : (raise e s).opr = s.opr := rfl
@[simp] theorem raise_a (e : Status) (s : State) : (raise e s).a = s.a := rfl
@[simp] theorem raise_b (e : Status) (s : State) : (raise e s).b = s.b := rfl
@[simp] theorem raise_idx (e : Status) (s : State) : (raise e s).idx = s.idx := rfl
@[simp] theorem raise_npoll (e : Status) (s : State) : (raise e s).npoll = s.npoll := rfl
@[simp] theorem raise_st (e : Status) (s : State) : (raise e s).st = s.st := rfl
@[simp] theorem raise_res (e : Status) (s : State) : (raise e s).res = s.res := rfl
@[simp] theorem raise_waitLimit (e : Status) (s : State) : (raise e s).waitLimit = s.waitLimit := rfl
@[simp] theorem raise_req (e : Status) (s : State) : (raise e s).req = s.req := rfl
@[simp] theorem raise_pay (e : Status) (s : State) : (raise e s).pay = s.pay := rfl
@[simp] theorem raise_bus (e : Status) (s : State) : (raise e s).bus = s.bus := rfl
@[simp] theorem raise_busy (e : Status) (s : State) : (raise e s).busy = s.busy := rfl
@[simp] theorem raise_dly (e : Status) (s : State) : (raise e s).dly = s.dly := rfl
@[simp] theorem raise_hrst (e : Status) (s : State) : (raise e s).hrst = s.hrst := rfl
@[simp] theorem raise_log (e : Status) (s : State) : (raise e s).log = s.log := rfl

@[simp] theorem acceptWord_csel (w : RequestWord) (p : Phase) (s : State) : (acceptWord w p s).csel = s.csel := rfl
@[simp] theorem acceptWord_dc (w : RequestWord) (p : Phase) (s : State) : (acceptWord w p s).dc = s.dc := rfl
@[simp] theorem acceptWord_rst (w : RequestWord) (p : Phase) (s : State) : (acceptWord w p s).rst = s.rst := rfl
@[simp] theorem acceptWord_ph (w : RequestWord) (p : Phase) (s : State) : (acceptWord w p s).ph = p := rfl
@[simp] theorem acceptWord_opr (w : RequestWord) (p : Phase) (s : State) : (acceptWord w p s).opr = fieldOp w := rfl
@[simp] theorem acceptWord_a (w : RequestWord) (p : Phase) (s : State) : (acceptWord w p s).a = fieldA w := rfl
@[simp] theorem acceptWord_b (w : RequestWord) (p : Phase) (s : State) : (acceptWord w p s).b = fieldB w := rfl
@[simp] theorem acceptWord_idx (w : RequestWord) (p : Phase) (s : State) : (acceptWord w p s).idx = s.idx := rfl
@[simp] theorem acceptWord_npoll (w : RequestWord) (p : Phase) (s : State) : (acceptWord w p s).npoll = s.npoll := rfl
@[simp] theorem acceptWord_st (w : RequestWord) (p : Phase) (s : State) : (acceptWord w p s).st = s.st := rfl
@[simp] theorem acceptWord_res (w : RequestWord) (p : Phase) (s : State) : (acceptWord w p s).res = s.res := rfl
@[simp] theorem acceptWord_waitLimit (w : RequestWord) (p : Phase) (s : State) :
    (acceptWord w p s).waitLimit = s.waitLimit := rfl
@[simp] theorem acceptWord_req (w : RequestWord) (p : Phase) (s : State) : (acceptWord w p s).req = s.req.tail := rfl
@[simp] theorem acceptWord_pay (w : RequestWord) (p : Phase) (s : State) :
    (acceptWord w p s).pay = presentedPayload s := rfl
@[simp] theorem acceptWord_bus (w : RequestWord) (p : Phase) (s : State) : (acceptWord w p s).bus = s.bus := rfl
@[simp] theorem acceptWord_busy (w : RequestWord) (p : Phase) (s : State) : (acceptWord w p s).busy = s.busy := rfl
@[simp] theorem acceptWord_dly (w : RequestWord) (p : Phase) (s : State) : (acceptWord w p s).dly = s.dly := rfl
@[simp] theorem acceptWord_hrst (w : RequestWord) (p : Phase) (s : State) : (acceptWord w p s).hrst = s.hrst := rfl
@[simp] theorem acceptWord_log (w : RequestWord) (p : Phase) (s : State) :
    (acceptWord w p s).log = .req w :: s.log := rfl

@[simp] theorem nextByte_csel (p : Phase) (s : State) : (nextByte p s).csel = s.csel := rfl
@[simp] theorem nextByte_dc (p : Phase) (s : State) : (nextByte p s).dc = s.dc := rfl
@[simp] theorem nextByte_rst (p : Phase) (s : State) : (nextByte p s).rst = s.rst := rfl
@[simp] theorem nextByte_ph (p : Phase) (s : State) : (nextByte p s).ph = p := rfl
@[simp] theorem nextByte_opr (p : Phase) (s : State) : (nextByte p s).opr = s.opr := rfl
@[simp] theorem nextByte_a (p : Phase) (s : State) : (nextByte p s).a = s.a := rfl
@[simp] theorem nextByte_b (p : Phase) (s : State) : (nextByte p s).b = s.b := rfl
@[simp] theorem nextByte_idx (p : Phase) (s : State) : (nextByte p s).idx = s.idx + 1 := rfl
@[simp] theorem nextByte_npoll (p : Phase) (s : State) : (nextByte p s).npoll = s.npoll := rfl
@[simp] theorem nextByte_st (p : Phase) (s : State) : (nextByte p s).st = s.st := rfl
@[simp] theorem nextByte_res (p : Phase) (s : State) : (nextByte p s).res = s.res := rfl
@[simp] theorem nextByte_waitLimit (p : Phase) (s : State) : (nextByte p s).waitLimit = s.waitLimit := rfl
@[simp] theorem nextByte_req (p : Phase) (s : State) : (nextByte p s).req = s.req := rfl
@[simp] theorem nextByte_pay (p : Phase) (s : State) : (nextByte p s).pay = s.pay := rfl
@[simp] theorem nextByte_bus (p : Phase) (s : State) : (nextByte p s).bus = s.bus := rfl
@[simp] theorem nextByte_busy (p : Phase) (s : State) : (nextByte p s).busy = s.busy := rfl
@[simp] theorem nextByte_dly (p : Phase) (s : State) : (nextByte p s).dly = s.dly := rfl
@[simp] theorem nextByte_hrst (p : Phase) (s : State) : (nextByte p s).hrst = s.hrst := rfl
@[simp] theorem nextByte_log (p : Phase) (s : State) : (nextByte p s).log = s.log := rfl

@[simp] theorem sampleBusy_csel (s : State) : (sampleBusy s).csel = s.csel := rfl
@[simp] theorem sampleBusy_dc (s : State) : (sampleBusy s).dc = s.dc := rfl
@[simp] theorem sampleBusy_rst (s : State) : (sampleBusy s).rst = s.rst := rfl
@[simp] theorem sampleBusy_ph (s : State) : (sampleBusy s).ph = s.ph := rfl
@[simp] theorem sampleBusy_opr (s : State) : (sampleBusy s).opr = s.opr := rfl
@[simp] theorem sampleBusy_a (s : State) : (sampleBusy s).a = s.a := rfl
@[simp] theorem sampleBusy_b (s : State) : (sampleBusy s).b = s.b := rfl
@[simp] theorem sampleBusy_idx (s : State) : (sampleBusy s).idx = s.idx := rfl
@[simp] theorem sampleBusy_npoll (s : State) : (sampleBusy s).npoll = s.npoll := rfl
@[simp] theorem sampleBusy_st (s : State) : (sampleBusy s).st = s.st := rfl
@[simp] theorem sampleBusy_res (s : State) : (sampleBusy s).res = s.res := rfl
@[simp] theorem sampleBusy_waitLimit (s : State) : (sampleBusy s).waitLimit = s.waitLimit := rfl
@[simp] theorem sampleBusy_req (s : State) : (sampleBusy s).req = s.req := rfl
@[simp] theorem sampleBusy_pay (s : State) : (sampleBusy s).pay = s.pay := rfl
@[simp] theorem sampleBusy_bus (s : State) : (sampleBusy s).bus = s.bus := rfl
@[simp] theorem sampleBusy_busy (s : State) : (sampleBusy s).busy = s.busy.tail := rfl
@[simp] theorem sampleBusy_dly (s : State) : (sampleBusy s).dly = s.dly := rfl
@[simp] theorem sampleBusy_hrst (s : State) : (sampleBusy s).hrst = s.hrst := rfl
@[simp] theorem sampleBusy_log (s : State) : (sampleBusy s).log = .smp s.busy.head :: s.log := rfl

@[simp] theorem blockReset_csel (s : State) : (blockReset s).csel = false := rfl
@[simp] theorem blockReset_dc (s : State) : (blockReset s).dc = false := rfl
@[simp] theorem blockReset_rst (s : State) : (blockReset s).rst = true := rfl
@[simp] theorem blockReset_ph (s : State) : (blockReset s).ph = .idle := rfl
@[simp] theorem blockReset_opr (s : State) : (blockReset s).opr = 0 := rfl
@[simp] theorem blockReset_a (s : State) : (blockReset s).a = 0 := rfl
@[simp] theorem blockReset_b (s : State) : (blockReset s).b = 0 := rfl
@[simp] theorem blockReset_idx (s : State) : (blockReset s).idx = 0 := rfl
@[simp] theorem blockReset_npoll (s : State) : (blockReset s).npoll = 0 := rfl
@[simp] theorem blockReset_st (s : State) : (blockReset s).st = 0 := rfl
@[simp] theorem blockReset_res (s : State) : (blockReset s).res = 0 := rfl
@[simp] theorem blockReset_waitLimit (s : State) : (blockReset s).waitLimit = s.waitLimit := rfl
@[simp] theorem blockReset_req (s : State) : (blockReset s).req = s.req := rfl
@[simp] theorem blockReset_pay (s : State) : (blockReset s).pay = [] := rfl
@[simp] theorem blockReset_bus (s : State) : (blockReset s).bus = s.bus := rfl
@[simp] theorem blockReset_busy (s : State) : (blockReset s).busy = s.busy := rfl
@[simp] theorem blockReset_dly (s : State) : (blockReset s).dly = s.dly := rfl
@[simp] theorem blockReset_hrst (s : State) : (blockReset s).hrst = s.hrst := rfl
@[simp] theorem blockReset_log (s : State) : (blockReset s).log = s.log := rfl

@[simp] theorem accept_eq (i : Instr) (p : Phase) (s : State) : accept i p s = acceptWord (encode i) p s := rfl

@[simp] theorem acceptReserved_eq (w : RequestWord) (s : State) :
    acceptReserved w s = acceptWord w (.abortA1 .illegalRequest) s := rfl

end Sys2Proof.Machine
end

