-- ==== Sys2Proof/Laws/Ops.lean ====
section
/-! SUPPORT. For each shared operation, once, everything it can do. -/

namespace Sys2Proof.Machine

@[simp] theorem Draws.drop_zero {α : Type} (d : Draws α) : d.drop 0 = d := rfl

@[simp] theorem Draws.tail_drop {α : Type} (d : Draws α) (n : Nat) : (d.tail).drop n = d.drop (n + 1) := by
  cases d with
  | mk script rest => cases script <;> simp [Draws.tail, Draws.drop]

@[simp] theorem Draws.drop_tail {α : Type} (d : Draws α) (n : Nat) : (d.drop n).tail = d.drop (n + 1) := by
  simp [Draws.tail, Draws.drop, List.tail_drop]

@[simp] theorem Draws.drop_drop {α : Type} (d : Draws α) (m n : Nat) : (d.drop m).drop n = d.drop (m + n) := by
  simp [Draws.drop, List.drop_drop]

theorem Draws.tail_eq_drop {α : Type} (d : Draws α) : d.tail = d.drop 1 := by
  simp [Draws.tail, Draws.drop]

/-- After the scripted draws, the draw is `rest` for ever. -/
theorem Draws.head_of_exhausted {α : Type} (d : Draws α) (h : d.script = []) : d.head = d.rest := by
  simp [Draws.head, h]

/-- A transfer waits, succeeds or fails (R34, R181). -/
theorem transmit_cases (byte : Byte) (onOk : State → State) (s : State) :
    (s.bus.head = none ∧ transmit byte onOk s = { s with bus := s.bus.tail }) ∨
    (s.bus.head = some .ok ∧
      transmit byte onOk s = onOk (emit (.tx byte .ok) { s with bus := s.bus.tail })) ∨
    (s.bus.head = some .fail ∧
      transmit byte onOk s = raise .busError (emit (.tx byte .fail) { s with bus := s.bus.tail })) := by
  unfold transmit
  rcases s.bus.head with _ | _ | _ <;> simp

theorem transmit_pending (byte : Byte) (onOk : State → State) (s : State) (h : s.bus.head = none) :
    transmit byte onOk s = { s with bus := s.bus.tail } := by simp [transmit, h]

theorem transmit_ok (byte : Byte) (onOk : State → State) (s : State) (h : s.bus.head = some .ok) :
    transmit byte onOk s = onOk (emit (.tx byte .ok) { s with bus := s.bus.tail }) := by simp [transmit, h]

theorem transmit_fail (byte : Byte) (onOk : State → State) (s : State) (h : s.bus.head = some .fail) :
    transmit byte onOk s = raise .busError (emit (.tx byte .fail) { s with bus := s.bus.tail }) := by
  simp [transmit, h]

/-- A delay waits or completes (R35). -/
theorem delay_cases (ms : Word32) (p : Phase) (s : State) :
    (s.dly.head = .pending ∧ delay ms p s = { s with dly := s.dly.tail }) ∨
    (s.dly.head = .completed ∧ delay ms p s = goto p (emit (.dly ms) { s with dly := s.dly.tail })) := by
  unfold delay
  rcases s.dly.head with _ | _ <;> simp

theorem delay_completed (ms : Word32) (p : Phase) (s : State) (h : s.dly.head = .completed) :
    delay ms p s = goto p (emit (.dly ms) { s with dly := s.dly.tail }) := by simp [delay, h]

/-- In an abort phase the abort sequence runs; elsewhere nothing moves (R187, U8). -/
theorem abortOrWait_cases (s : State) :
    (∃ e, s.ph = .abortA1 e ∧ abortOrWait s = goto .abortA2 { s with st := statusCode e, res := 0 }) ∨
    (s.ph = .abortA2 ∧ s.csel = true ∧ abortOrWait s = goto .abortA3 (writeCS false s)) ∨
    (s.ph = .abortA2 ∧ s.csel = false ∧ abortOrWait s = goto .abortA3 s) ∨
    (s.ph = .abortA3 ∧ abortOrWait s = respond s.st 0 s) ∨
    ((∀ e, s.ph ≠ .abortA1 e) ∧ s.ph ≠ .abortA2 ∧ s.ph ≠ .abortA3 ∧ abortOrWait s = s) := by
  unfold abortOrWait
  split <;> simp_all
  cases s.csel <;> simp

end Sys2Proof.Machine
end

