-- ==== Sys2Proof/Laws/Step.lean ====
section
/-! SUPPORT. What one step can do (the inversion of the sequencer), and runs of steps taken apart. -/

namespace Sys2Proof.Machine

/-- A step with `hrst` asserted is a block reset and nothing else (R210). -/
theorem step_of_reset (s : State) (later : List Bool) (h : s.hrst = true :: later) :
    step s = .next (blockReset { s with hrst := later }) := by
  simp [step, clockStep, h]

/-- A step with `hrst` deasserted is the sequencer's. -/
theorem step_of_running (s : State) (h : s.hrst.head? ≠ some true) :
    step s = sequencerStep { s with hrst := s.hrst.tail } := by
  unfold step clockStep
  rcases hr : s.hrst with _ | ⟨_ | _, _⟩ <;> simp_all

theorem step_of_no_reset (s : State) (h : s.hrst = []) : step s = sequencerStep s := by
  have : ({ s with hrst := s.hrst.tail } : State) = s := by
    cases s
    simp_all
  rw [step_of_running s (by simp [h]), this]

/-- The sequencer in `IDLE` with no request presented. -/
theorem sequencerStep_waiting (s : State) (h : s.ph = .idle) (hr : s.req = []) : sequencerStep s = .next s := by
  simp [sequencerStep, phaseOpcode, h, acceptStep, hr]

/-- The sequencer in `IDLE` with a request that decodes to an operation. -/
theorem sequencerStep_accept (s : State) (r : Request) (later : List Request) (i : Instr) (h : s.ph = .idle)
    (hr : s.req = r :: later) (hd : decode r.word = .instr i) : sequencerStep s = exec i s := by
  simp [sequencerStep, phaseOpcode, h, acceptStep, hr, hd]

/-- The sequencer in `IDLE` with a reserved request word (R86). -/
theorem sequencerStep_reserved (s : State) (r : Request) (later : List Request) (why : ReservedWhy) (h : s.ph = .idle)
    (hr : s.req = r :: later) (hd : decode r.word = .reserved why) :
    sequencerStep s = .next (acceptReserved r.word s) := by
  simp [sequencerStep, phaseOpcode, h, acceptStep, hr, hd]

/-- The sequencer in a phase of the latched operation. -/
theorem sequencerStep_operation (s : State) (i : Instr) (hd : decode (latchedWord s) = .instr i)
    (hp : phaseOpcode s.ph = some i.opcode) : sequencerStep s = exec i s := by
  simp [sequencerStep, hp, operationStep, hd]

/-- The sequencer in an abort phase (R187). -/
theorem sequencerStep_abort (s : State) (hp : phaseOpcode s.ph = none) (h : s.ph ≠ .idle) :
    sequencerStep s = .next (abortOrWait s) := by
  simp [sequencerStep, hp, h]

/-- Everything a sequencer step can do. -/
theorem sequencerStep_cases (s : State) :
    (s.ph = .idle ∧ s.req = [] ∧ sequencerStep s = .next s) ∨
    (∃ r later i, s.ph = .idle ∧ s.req = r :: later ∧ decode r.word = .instr i ∧ sequencerStep s = exec i s) ∨
    (∃ r later why, s.ph = .idle ∧ s.req = r :: later ∧ decode r.word = .reserved why ∧
      sequencerStep s = .next (acceptReserved r.word s)) ∨
    (∃ i, decode (latchedWord s) = .instr i ∧ phaseOpcode s.ph = some i.opcode ∧ sequencerStep s = exec i s) ∨
    (phaseOpcode s.ph = none ∧ s.ph ≠ .idle ∧ sequencerStep s = .next (abortOrWait s)) ∨
    (∃ code, phaseOpcode s.ph = some code ∧ (∀ i, decode (latchedWord s) = .instr i → i.opcode ≠ code) ∧
      sequencerStep s = .fault .phaseMismatch) := by
  by_cases hi : s.ph = .idle
  · rcases hr : s.req with _ | ⟨r, later⟩
    · exact .inl ⟨hi, rfl, sequencerStep_waiting s hi hr⟩
    · rcases hd : decode r.word with i | why
      · exact .inr (.inl ⟨r, later, i, hi, rfl, hd, sequencerStep_accept s r later i hi hr hd⟩)
      · exact .inr (.inr (.inl ⟨r, later, why, hi, rfl, hd, sequencerStep_reserved s r later why hi hr hd⟩))
  · rcases hp : phaseOpcode s.ph with _ | code
    · exact .inr (.inr (.inr (.inr (.inl ⟨rfl, hi, sequencerStep_abort s hp hi⟩))))
    · rcases hd : decode (latchedWord s) with i | why
      · by_cases hc : i.opcode = code
        · exact .inr (.inr (.inr (.inl ⟨i, rfl, by rw [hc], sequencerStep_operation s i hd (by rw [hp, hc])⟩)))
        · exact .inr (.inr (.inr (.inr (.inr ⟨code, rfl, by rintro j ⟨rfl⟩; exact hc,
            by simp [sequencerStep, hp, operationStep, hd, hc]⟩))))
      · exact .inr (.inr (.inr (.inr (.inr ⟨code, rfl, by simp,
          by simp [sequencerStep, hp, operationStep, hd]⟩))))

@[simp] theorem run_zero (s : State) : run 0 s = .next s := rfl

theorem run_succ (k : Nat) (s : State) :
    run (k + 1) s =
      match step s with
      | .next t => run k t
      | .fault r => .fault r
      | .refused r => .refused r := by
  have h : Sys2Proof.core.step s = step s := rfl
  have hr := Host.Core.run.eq_2 Sys2Proof.core s k
  rw [h] at hr
  refine Eq.trans hr ?_
  cases step s <;> rfl

/-- One step of a run that goes on. -/
theorem run_step (k : Nat) (s t : State) (h : step s = .next t) : run (k + 1) s = run k t := by
  rw [run_succ, h]

/-- Runs compose. -/
theorem run_add (j k : Nat) (s t : State) (h : run j s = .next t) : run (j + k) s = run k t := by
  induction j generalizing s with
  | zero =>
    cases h
    simp
  | succ j ih =>
    rw [Nat.succ_add, run_succ]
    rw [run_succ] at h
    split at h <;> simp_all

end Sys2Proof.Machine
end

