-- ==== Sys2Proof/Laws/Moves.lean ====
section
/-! SUPPORT. Everything a micro-step can do, said once: `Moves i s t` lists the moves of operation `i`, with their guards, and
`moves_of_exec` says that whenever `exec i s` answers a next state, it made one of them. `StepMoves` does the same for a step of
the whole machine. Invariants and frames are proved by cases over these, not by unfolding the meanings. -/

namespace Sys2Proof.Machine

/-- The first micro-step of an operation. -/
def firstPhase : Instr → Phase
  | .sendCommand _ => .sendCommandS1
  | .sendData _ => .sendDataS1
  | .sendCommandWithData _ _ => .sendCommandWithDataS1
  | .repeatByte _ _ => .repeatByteS1
  | .reset _ _ => .resetS1
  | .waitUntilIdle _ => .waitUntilIdleS1
  | .computeWindow _ => .computeWindowS1
  | .computeCounter _ _ => .computeCounterS1
  | .expand _ => .expandS1

/-- The moves of the abort sequence (R187). -/
inductive AbortMoves : State → State → Prop
  | a1 (s : State) (e : Status) (hp : s.ph = .abortA1 e) :
      AbortMoves s (goto .abortA2 { s with st := statusCode e, res := 0 })
  | a2Release (s : State) (hp : s.ph = .abortA2) (hc : s.csel = true) : AbortMoves s (goto .abortA3 (writeCS false s))
  | a2Released (s : State) (hp : s.ph = .abortA2) (hc : s.csel = false) : AbortMoves s (goto .abortA3 s)
  | a3 (s : State) (hp : s.ph = .abortA3) : AbortMoves s (respond s.st 0 s)

/-- The moves of a byte handed to the bus primitive, from any phase (R34, R181). -/
inductive TxMoves (byte : Byte) (onOk : State → State) : State → State → Prop
  | waits (s : State) (hb : s.bus.head = none) : TxMoves byte onOk s { s with bus := s.bus.tail }
  | ok (s : State) (hb : s.bus.head = some .ok) :
      TxMoves byte onOk s (onOk (emit (.tx byte .ok) { s with bus := s.bus.tail }))
  | fail (s : State) (hb : s.bus.head = some .fail) :
      TxMoves byte onOk s (raise .busError (emit (.tx byte .fail) { s with bus := s.bus.tail }))

/-- The moves of each operation (R111 to R116, R151, R154, R170). -/
inductive Moves : Instr → State → State → Prop
  | accept (i : Instr) (s : State) (hp : s.ph = .idle) : Moves i s (acceptWord (encode i) (firstPhase i) s)
  | abort (i : Instr) (s t : State) (h : AbortMoves s t) : Moves i s t
  | noMove (i : Instr) (s : State) (hi : s.ph ≠ .idle) (hp : phaseOpcode s.ph ≠ some i.opcode)
      (ha : ∀ e, s.ph ≠ .abortA1 e) (h2 : s.ph ≠ .abortA2) (h3 : s.ph ≠ .abortA3) : Moves i s s
  | sendCommandS1 (code : Byte) (s : State) (hp : s.ph = .sendCommandS1) :
      Moves (.sendCommand code) s (goto .sendCommandS2 (writeDC false (startOperation s)))
  | sendCommandS2 (code : Byte) (s : State) (hp : s.ph = .sendCommandS2) :
      Moves (.sendCommand code) s (goto .sendCommandS3 (writeCS true s))
  | sendCommandS3 (code : Byte) (s t : State) (hp : s.ph = .sendCommandS3)
      (h : TxMoves code (goto .sendCommandS4) s t) : Moves (.sendCommand code) s t
  | sendCommandS4 (code : Byte) (s : State) (hp : s.ph = .sendCommandS4) :
      Moves (.sendCommand code) s (goto .sendCommandS5 (writeCS false s))
  | sendCommandS5 (code : Byte) (s : State) (hp : s.ph = .sendCommandS5) :
      Moves (.sendCommand code) s (respond 0 0 s)
  | sendDataS1 (len : Word32) (s : State) (hp : s.ph = .sendDataS1) :
      Moves (.sendData len) s (goto .sendDataS2 (writeDC true (startOperation s)))
  | sendDataS2 (len : Word32) (s : State) (hp : s.ph = .sendDataS2) :
      Moves (.sendData len) s (goto .sendDataS3 (setIndex 0 (writeCS true s)))
  | sendDataS3Done (len : Word32) (s : State) (hp : s.ph = .sendDataS3) (hi : s.idx = len) :
      Moves (.sendData len) s (goto .sendDataS4 s)
  | sendDataS3 (len : Word32) (s : State) (byte : Byte) (hp : s.ph = .sendDataS3) (hi : s.idx ≠ len)
      (hb : payRead s.idx s = some byte) :
      Moves (.sendData len) s (goto (.sendDataS3Tx byte) (emit (.payRd s.idx byte) s))
  | sendDataS3Tx (len : Word32) (byte : Byte) (s t : State) (hp : s.ph = .sendDataS3Tx byte)
      (h : TxMoves byte (nextByte .sendDataS3) s t) : Moves (.sendData len) s t
  | sendDataS4 (len : Word32) (s : State) (hp : s.ph = .sendDataS4) :
      Moves (.sendData len) s (goto .sendDataS5 (writeCS false s))
  | sendDataS5 (len : Word32) (s : State) (hp : s.ph = .sendDataS5) : Moves (.sendData len) s (respond 0 0 s)
  | withDataS1 (code : Byte) (len : Word32) (s : State) (hp : s.ph = .sendCommandWithDataS1) :
      Moves (.sendCommandWithData code len) s (goto .sendCommandWithDataS2 (writeDC false (startOperation s)))
  | withDataS2 (code : Byte) (len : Word32) (s : State) (hp : s.ph = .sendCommandWithDataS2) :
      Moves (.sendCommandWithData code len) s (goto .sendCommandWithDataS3 (setIndex 0 (writeCS true s)))
  | withDataS3 (code : Byte) (len : Word32) (s t : State) (hp : s.ph = .sendCommandWithDataS3)
      (h : TxMoves code (goto .sendCommandWithDataS4) s t) : Moves (.sendCommandWithData code len) s t
  | withDataS4 (code : Byte) (len : Word32) (s : State) (hp : s.ph = .sendCommandWithDataS4) :
      Moves (.sendCommandWithData code len) s (goto .sendCommandWithDataS5 (writeDC true s))
  | withDataS5Done (code : Byte) (len : Word32) (s : State) (hp : s.ph = .sendCommandWithDataS5) (hi : s.idx = len) :
      Moves (.sendCommandWithData code len) s (goto .sendCommandWithDataS6 s)
  | withDataS5 (code : Byte) (len : Word32) (s : State) (byte : Byte) (hp : s.ph = .sendCommandWithDataS5)
      (hi : s.idx ≠ len) (hb : payRead s.idx s = some byte) :
      Moves (.sendCommandWithData code len) s (goto (.sendCommandWithDataS5Tx byte) (emit (.payRd s.idx byte) s))
  | withDataS5Tx (code : Byte) (len : Word32) (byte : Byte) (s t : State) (hp : s.ph = .sendCommandWithDataS5Tx byte)
      (h : TxMoves byte (nextByte .sendCommandWithDataS5) s t) : Moves (.sendCommandWithData code len) s t
  | withDataS6 (code : Byte) (len : Word32) (s : State) (hp : s.ph = .sendCommandWithDataS6) :
      Moves (.sendCommandWithData code len) s (goto .sendCommandWithDataS7 (writeCS false s))
  | withDataS7 (code : Byte) (len : Word32) (s : State) (hp : s.ph = .sendCommandWithDataS7) :
      Moves (.sendCommandWithData code len) s (respond 0 0 s)
  | repeatByteS1 (value : Byte) (count : Word32) (s : State) (hp : s.ph = .repeatByteS1) :
      Moves (.repeatByte value count) s (goto .repeatByteS2 (writeDC true (startOperation s)))
  | repeatByteS2 (value : Byte) (count : Word32) (s : State) (hp : s.ph = .repeatByteS2) :
      Moves (.repeatByte value count) s (goto .repeatByteS3 (setIndex 0 (writeCS true s)))
  | repeatByteS3Done (value : Byte) (count : Word32) (s : State) (hp : s.ph = .repeatByteS3) (hi : s.idx = count) :
      Moves (.repeatByte value count) s (goto .repeatByteS4 s)
  | repeatByteS3 (value : Byte) (count : Word32) (s t : State) (hp : s.ph = .repeatByteS3) (hi : s.idx ≠ count)
      (h : TxMoves value (nextByte .repeatByteS3) s t) : Moves (.repeatByte value count) s t
  | repeatByteS4 (value : Byte) (count : Word32) (s : State) (hp : s.ph = .repeatByteS4) :
      Moves (.repeatByte value count) s (goto .repeatByteS5 (writeCS false s))
  | repeatByteS5 (value : Byte) (count : Word32) (s : State) (hp : s.ph = .repeatByteS5) :
      Moves (.repeatByte value count) s (respond 0 0 s)
  | resetS1 (low after : Word32) (s : State) (hp : s.ph = .resetS1) :
      Moves (.reset low after) s (goto .resetS2 (writeRST false (startOperation s)))
  | resetS2Waits (low after : Word32) (s : State) (hp : s.ph = .resetS2) (hd : s.dly.head = .pending) :
      Moves (.reset low after) s { s with dly := s.dly.tail }
  | resetS2 (low after : Word32) (s : State) (hp : s.ph = .resetS2) (hd : s.dly.head = .completed) :
      Moves (.reset low after) s (goto .resetS3 (emit (.dly low) { s with dly := s.dly.tail }))
  | resetS3 (low after : Word32) (s : State) (hp : s.ph = .resetS3) :
      Moves (.reset low after) s (goto .resetS4 (writeRST true s))
  | resetS4Waits (low after : Word32) (s : State) (hp : s.ph = .resetS4) (hd : s.dly.head = .pending) :
      Moves (.reset low after) s { s with dly := s.dly.tail }
  | resetS4 (low after : Word32) (s : State) (hp : s.ph = .resetS4) (hd : s.dly.head = .completed) :
      Moves (.reset low after) s (goto .resetS5 (emit (.dly after) { s with dly := s.dly.tail }))
  | resetS5 (low after : Word32) (s : State) (hp : s.ph = .resetS5) : Moves (.reset low after) s (respond 0 0 s)
  | waitS1 (p : Bool) (s : State) (hp : s.ph = .waitUntilIdleS1) :
      Moves (.waitUntilIdle p) s (goto .waitUntilIdleS2 (setPolls 0 (startOperation s)))
  | waitS2Idle (p : Bool) (s : State) (hp : s.ph = .waitUntilIdleS2) (hb : busyState p s.busy.head = false) :
      Moves (.waitUntilIdle p) s (goto .waitUntilIdleS3 (sampleBusy s))
  | waitS2Busy (p : Bool) (s : State) (hp : s.ph = .waitUntilIdleS2) (hb : busyState p s.busy.head = true)
      (hl : limitReached s.waitLimit (pollCount s.npoll) = false) :
      Moves (.waitUntilIdle p) s (setPolls (pollCount s.npoll) (sampleBusy s))
  | waitS2Timeout (p : Bool) (s : State) (hp : s.ph = .waitUntilIdleS2) (hb : busyState p s.busy.head = true)
      (hl : limitReached s.waitLimit (pollCount s.npoll) = true) :
      Moves (.waitUntilIdle p) s (raise .timeout (setPolls (pollCount s.npoll) (sampleBusy s)))
  | waitS3 (p : Bool) (s : State) (hp : s.ph = .waitUntilIdleS3) : Moves (.waitUntilIdle p) s (respond 0 0 s)
  | windowS1Invalid (r : Rectangle) (s : State) (hp : s.ph = .computeWindowS1) (hd : windowDegenerate r = true) :
      Moves (.computeWindow r) s (raise .invalidWindow (startOperation s))
  | windowS1 (r : Rectangle) (s : State) (hp : s.ph = .computeWindowS1) (hd : windowDegenerate r = false)
      (hf : windowFits r = true) :
      Moves (.computeWindow r) s (goto .computeWindowS2 (setResult (windowResult r) (startOperation s)))
  | windowS2 (r : Rectangle) (s : State) (hp : s.ph = .computeWindowS2) :
      Moves (.computeWindow r) s (respond 0 s.res s)
  | counterS1 (x y : Coord) (s : State) (hp : s.ph = .computeCounterS1) (hf : counterFits x = true) :
      Moves (.computeCounter x y) s (goto .computeCounterS2 (setResult (counterResult x y) (startOperation s)))
  | counterS2 (x y : Coord) (s : State) (hp : s.ph = .computeCounterS2) :
      Moves (.computeCounter x y) s (respond 0 s.res s)
  | expandS1 (byte : Byte) (s : State) (hp : s.ph = .expandS1) :
      Moves (.expand byte) s (goto .expandS2 (setResult (expandResult byte) (startOperation s)))
  | expandS2 (byte : Byte) (s : State) (hp : s.ph = .expandS2) : Moves (.expand byte) s (respond 0 s.res s)

theorem abortMoves_or_same (s : State) :
    AbortMoves s (abortOrWait s) ∨
      ((∀ e, s.ph ≠ .abortA1 e) ∧ s.ph ≠ .abortA2 ∧ s.ph ≠ .abortA3 ∧ abortOrWait s = s) := by
  rcases abortOrWait_cases s with ⟨e, hp, he⟩ | ⟨hp, hc, he⟩ | ⟨hp, hc, he⟩ | ⟨hp, he⟩ | ⟨h1, h2, h3, he⟩
  · exact .inl (he ▸ .a1 s e hp)
  · exact .inl (he ▸ .a2Release s hp hc)
  · exact .inl (he ▸ .a2Released s hp hc)
  · exact .inl (he ▸ .a3 s hp)
  · exact .inr ⟨h1, h2, h3, he⟩

theorem moves_abortOrWait (i : Instr) (s : State) (hi : s.ph ≠ .idle) (hp : phaseOpcode s.ph ≠ some i.opcode) :
    Moves i s (abortOrWait s) := by
  rcases abortMoves_or_same s with h | ⟨h1, h2, h3, he⟩
  · exact .abort i s _ h
  · rw [he]
    exact .noMove i s hi hp h1 h2 h3

theorem txMoves_transmit (byte : Byte) (onOk : State → State) (s : State) :
    TxMoves byte onOk s (transmit byte onOk s) := by
  rcases transmit_cases byte onOk s with ⟨h, he⟩ | ⟨h, he⟩ | ⟨h, he⟩ <;> rw [he]
  · exact .waits s h
  · exact .ok s h
  · exact .fail s h

/-- A phase that is none of an operation's own labels carries another operation's code, or none. -/
theorem phaseOpcode_ne_of_other {s : State} {code : Byte} (h : ∀ p, phaseOpcode p = some code → s.ph ≠ p) :
    phaseOpcode s.ph ≠ some code := fun hc => h s.ph hc rfl

/-- Every next state of `exec i s` is reached by one of `i`'s moves. -/
theorem moves_of_exec (i : Instr) (s t : State) (h : exec i s = .next t) : Moves i s t := by
  cases i with
  | sendCommand code =>
    simp only [exec, execSendCommand] at h
    split at h <;> injection h with h <;> subst h
    · exact .accept _ s ‹_›
    · exact .sendCommandS1 code s ‹_›
    · exact .sendCommandS2 code s ‹_›
    · exact .sendCommandS3 code s _ ‹_› (txMoves_transmit _ _ _)
    · exact .sendCommandS4 code s ‹_›
    · exact .sendCommandS5 code s ‹_›
    · refine moves_abortOrWait _ s ‹_› (phaseOpcode_ne_of_other ?_)
      intro p hp hs
      cases p <;> simp_all [phaseOpcode, Instr.opcode]
  | sendData len =>
    simp only [exec, execSendData] at h
    split at h
    · cases h
      exact .accept _ s ‹_›
    · cases h
      exact .sendDataS1 len s ‹_›
    · cases h
      exact .sendDataS2 len s ‹_›
    · split at h
      · cases h
        exact .sendDataS3Done len s ‹_› ‹_›
      · split at h <;> cases h
        exact .sendDataS3 len s _ ‹_› ‹_› ‹_›
    · cases h
      exact .sendDataS3Tx len _ s _ ‹_› (txMoves_transmit _ _ _)
    · cases h
      exact .sendDataS4 len s ‹_›
    · cases h
      exact .sendDataS5 len s ‹_›
    · cases h
      refine moves_abortOrWait _ s ‹_› (phaseOpcode_ne_of_other ?_)
      intro p hp hs
      cases p <;> simp_all [phaseOpcode, Instr.opcode]
  | sendCommandWithData code len =>
    simp only [exec, execSendCommandWithData] at h
    split at h
    · cases h
      exact .accept _ s ‹_›
    · cases h
      exact .withDataS1 code len s ‹_›
    · cases h
      exact .withDataS2 code len s ‹_›
    · cases h
      exact .withDataS3 code len s _ ‹_› (txMoves_transmit _ _ _)
    · cases h
      exact .withDataS4 code len s ‹_›
    · split at h
      · cases h
        exact .withDataS5Done code len s ‹_› ‹_›
      · split at h <;> cases h
        exact .withDataS5 code len s _ ‹_› ‹_› ‹_›
    · cases h
      exact .withDataS5Tx code len _ s _ ‹_› (txMoves_transmit _ _ _)
    · cases h
      exact .withDataS6 code len s ‹_›
    · cases h
      exact .withDataS7 code len s ‹_›
    · cases h
      refine moves_abortOrWait _ s ‹_› (phaseOpcode_ne_of_other ?_)
      intro p hp hs
      cases p <;> simp_all [phaseOpcode, Instr.opcode]
  | repeatByte value count =>
    simp only [exec, execRepeatByte] at h
    split at h
    · cases h
      exact .accept _ s ‹_›
    · cases h
      exact .repeatByteS1 value count s ‹_›
    · cases h
      exact .repeatByteS2 value count s ‹_›
    · split at h <;> cases h
      · exact .repeatByteS3Done value count s ‹_› ‹_›
      · exact .repeatByteS3 value count s _ ‹_› ‹_› (txMoves_transmit _ _ _)
    · cases h
      exact .repeatByteS4 value count s ‹_›
    · cases h
      exact .repeatByteS5 value count s ‹_›
    · cases h
      refine moves_abortOrWait _ s ‹_› (phaseOpcode_ne_of_other ?_)
      intro p hp hs
      cases p <;> simp_all [phaseOpcode, Instr.opcode]
  | reset low after =>
    simp only [exec, execReset] at h
    split at h <;> injection h with h <;> subst h
    · exact .accept _ s ‹_›
    · exact .resetS1 low after s ‹_›
    · rcases delay_cases low .resetS3 s with ⟨hd, he⟩ | ⟨hd, he⟩ <;> rw [he]
      · exact .resetS2Waits low after s ‹_› hd
      · exact .resetS2 low after s ‹_› hd
    · exact .resetS3 low after s ‹_›
    · rcases delay_cases after .resetS5 s with ⟨hd, he⟩ | ⟨hd, he⟩ <;> rw [he]
      · exact .resetS4Waits low after s ‹_› hd
      · exact .resetS4 low after s ‹_› hd
    · exact .resetS5 low after s ‹_›
    · refine moves_abortOrWait _ s ‹_› (phaseOpcode_ne_of_other ?_)
      intro p hp hs
      cases p <;> simp_all [phaseOpcode, Instr.opcode]
  | waitUntilIdle p =>
    simp only [exec, execWaitUntilIdle] at h
    split at h <;> injection h with h <;> subst h
    · exact .accept _ s ‹_›
    · exact .waitS1 p s ‹_›
    · rcases hb : busyState p s.busy.head with _ | _
      · simpa [pollOnce, hb] using Moves.waitS2Idle p s ‹_› hb
      · rcases hl : limitReached s.waitLimit (pollCount s.npoll) with _ | _
        · simpa [pollOnce, hb, hl] using Moves.waitS2Busy p s ‹_› hb hl
        · simpa [pollOnce, hb, hl] using Moves.waitS2Timeout p s ‹_› hb hl
    · exact .waitS3 p s ‹_›
    · refine moves_abortOrWait _ s ‹_› (phaseOpcode_ne_of_other ?_)
      intro p hp hs
      cases p <;> simp_all [phaseOpcode, Instr.opcode]
  | computeWindow r =>
    simp only [exec, execComputeWindow, windowStep] at h
    split at h
    · cases h
      exact .accept _ s ‹_›
    · split at h
      · cases h
        exact .windowS1Invalid r s ‹_› ‹_›
      · split at h <;> cases h
        exact .windowS1 r s ‹_› (Bool.eq_false_iff.mpr ‹_›) ‹_›
    · cases h
      exact .windowS2 r s ‹_›
    · cases h
      refine moves_abortOrWait _ s ‹_› (phaseOpcode_ne_of_other ?_)
      intro p hp hs
      cases p <;> simp_all [phaseOpcode, Instr.opcode]
  | computeCounter x y =>
    simp only [exec, execComputeCounter] at h
    split at h
    · cases h
      exact .accept _ s ‹_›
    · split at h <;> cases h
      exact .counterS1 x y s ‹_› ‹_›
    · cases h
      exact .counterS2 x y s ‹_›
    · cases h
      refine moves_abortOrWait _ s ‹_› (phaseOpcode_ne_of_other ?_)
      intro p hp hs
      cases p <;> simp_all [phaseOpcode, Instr.opcode]
  | expand byte =>
    simp only [exec, execExpand] at h
    split at h <;> injection h with h <;> subst h
    · exact .accept _ s ‹_›
    · exact .expandS1 byte s ‹_›
    · exact .expandS2 byte s ‹_›
    · refine moves_abortOrWait _ s ‹_› (phaseOpcode_ne_of_other ?_)
      intro p hp hs
      cases p <;> simp_all [phaseOpcode, Instr.opcode]

/-- The moves of the whole machine, after `hrst` has been read. -/
inductive StepMoves : State → State → Prop
  | waits (s : State) (hp : s.ph = .idle) (hr : s.req = []) : StepMoves s s
  | accepts (s t : State) (i : Instr) (r : Request) (later : List Request) (hp : s.ph = .idle)
      (hr : s.req = r :: later) (hd : decode r.word = .instr i) (h : Moves i s t) : StepMoves s t
  | acceptsReserved (s : State) (r : Request) (later : List Request) (why : ReservedWhy) (hp : s.ph = .idle)
      (hr : s.req = r :: later) (hd : decode r.word = .reserved why) :
      StepMoves s (acceptWord r.word (.abortA1 .illegalRequest) s)
  | operation (s t : State) (i : Instr) (hd : decode (latchedWord s) = .instr i)
      (hp : phaseOpcode s.ph = some i.opcode) (h : Moves i s t) : StepMoves s t
  | aborts (s t : State) (h : AbortMoves s t) : StepMoves s t

/-- Every next state of a sequencer step is reached by one of the moves. -/
theorem stepMoves_of_sequencerStep (s t : State) (h : sequencerStep s = .next t) : StepMoves s t := by
  rcases sequencerStep_cases s with ⟨hp, hr, he⟩ | ⟨r, later, i, hp, hr, hd, he⟩ | ⟨r, later, why, hp, hr, hd, he⟩ |
    ⟨i, hd, hp, he⟩ | ⟨hp, hi, he⟩ | ⟨code, _, _, he⟩ <;> rw [he] at h
  · cases h
    exact .waits s hp hr
  · exact .accepts s t i r later hp hr hd (moves_of_exec i s t h)
  · cases h
    exact .acceptsReserved s r later why hp hr hd
  · exact .operation s t i hd hp (moves_of_exec i s t h)
  · cases h
    rcases abortMoves_or_same s with ha | ⟨h1, h2, h3, _⟩
    · exact .aborts s _ ha
    · exfalso
      rcases hs : s.ph <;> simp_all [phaseOpcode]
  · cases h

/-- Every next state of a step is a block reset or reached by one of the moves with `hrst` read. -/
theorem stepMoves_of_step (s t : State) (h : step s = .next t) :
    (∃ levels, s.hrst = true :: levels ∧ t = blockReset { s with hrst := levels }) ∨
      (s.hrst.head? ≠ some true ∧ StepMoves { s with hrst := s.hrst.tail } t) := by
  rcases hr : s.hrst with _ | ⟨_ | _, levels⟩
  · exact .inr ⟨by simp, stepMoves_of_sequencerStep _ t (by
      rw [← h, step_of_running s (by simp [hr]), hr])⟩
  · exact .inr ⟨by simp, stepMoves_of_sequencerStep _ t (by
      rw [← h, step_of_running s (by simp [hr]), hr])⟩
  · refine .inl ⟨levels, rfl, ?_⟩
    rw [step_of_reset s levels hr] at h
    cases h
    rfl

end Sys2Proof.Machine
end

