-- ==== Sys2Proof/Laws/PerInstr.lean ====
section
/-! SUPPORT. The family FitsRow: the word of every operation carries its operation code and satisfies its opcode-table row's
`W & mask == match` (R81, R83, R85). -/

namespace Sys2Proof.Laws.FitsRow

/-- The encoded word carries the operation's code and its row of the opcode table matches it. -/
def Statement (i : Instr) : Prop := fieldOp (encode i) = i.opcode ∧ i.row.hits (encode i) = true

theorem sendCommand (code : Byte) : Statement (.sendCommand code) := by
  refine ⟨fieldOp_encode _, ?_⟩
  simpa [Instr.row, hits_sendCommand, Instr.opcode, Instr.operandA, Instr.operandB] using byteOperand_mask code

theorem sendData (len : Word32) : Statement (.sendData len) := by
  refine ⟨fieldOp_encode _, ?_⟩
  simp [Instr.row, hits_sendData, Instr.opcode, Instr.operandA]

theorem sendCommandWithData (code : Byte) (len : Word32) : Statement (.sendCommandWithData code len) := by
  refine ⟨fieldOp_encode _, ?_⟩
  simpa [Instr.row, hits_sendCommandWithData, Instr.opcode, Instr.operandA] using byteOperand_mask code

theorem repeatByte (value : Byte) (count : Word32) : Statement (.repeatByte value count) := by
  refine ⟨fieldOp_encode _, ?_⟩
  simpa [Instr.row, hits_repeatByte, Instr.opcode, Instr.operandA] using byteOperand_mask value

theorem reset (low after : Word32) : Statement (.reset low after) := by
  refine ⟨fieldOp_encode _, ?_⟩
  simp [Instr.row, hits_reset, Instr.opcode]

theorem waitUntilIdle (flag : Bool) : Statement (.waitUntilIdle flag) := by
  refine ⟨fieldOp_encode _, ?_⟩
  simpa [Instr.row, hits_waitUntilIdle, Instr.opcode, Instr.operandA, Instr.operandB] using flagOperand_mask flag

theorem computeWindow (rect : Rectangle) : Statement (.computeWindow rect) := by
  refine ⟨fieldOp_encode _, ?_⟩
  simp [Instr.row, hits_computeWindow, Instr.opcode]

theorem computeCounter (x y : Coord) : Statement (.computeCounter x y) := by
  refine ⟨fieldOp_encode _, ?_⟩
  simp [Instr.row, hits_computeCounter, Instr.opcode, Instr.operandB]

theorem expand (byte : Byte) : Statement (.expand byte) := by
  refine ⟨fieldOp_encode _, ?_⟩
  simpa [Instr.row, hits_expand, Instr.opcode, Instr.operandA, Instr.operandB] using byteOperand_mask byte

end Sys2Proof.Laws.FitsRow
end

