-- ==== Sys2Proof/Laws/Values.lean ====
section
/-! SUPPORT. The arithmetic of AddressWindow in terms of plain division, and concatenation in terms of plain numbers. -/

namespace Sys2Proof.Machine

/-- The value of a concatenation. -/
theorem toNat_append_eq {m n : Nat} (hi : BitVec m) (lo : BitVec n) : (hi ++ lo).toNat = hi.toNat * 2 ^ n + lo.toNat := by
  rw [BitVec.toNat_append, ← Nat.shiftLeft_add_eq_or_of_lt lo.isLt, Nat.shiftLeft_eq]

theorem windowXStart_eq_div (r : Rectangle) : windowXStart r = r.x.toNat / 8 := by
  simp [windowXStart, Nat.shiftRight_eq_div_pow]

theorem windowXEnd_eq_div (r : Rectangle) : windowXEnd r = (r.x.toNat + r.width.toNat - 1) / 8 := by
  simp [windowXEnd, Nat.shiftRight_eq_div_pow]

theorem counterX_eq_div (x : Coord) : counterX x = x.toNat / 8 := by
  simp [counterX, Nat.shiftRight_eq_div_pow]

theorem lowByte_toNat (v : Coord) : (lowByte v).toNat = v.toNat % 2 ^ 8 := by
  simp [lowByte]

theorem highByte_toNat (v : Coord) : (highByte v).toNat = v.toNat / 2 ^ 8 := by
  have := v.isLt
  simp [highByte, Nat.shiftRight_eq_div_pow]
  omega

/-- A window fits exactly within the limits of R155. -/
theorem windowFits_eq (r : Rectangle) :
    windowFits r = decide (windowXEnd r ≤ 255 ∧ windowYEnd r ≤ 65535) := rfl

/-- A point fits exactly within the limits of R155. -/
theorem counterFits_eq (x : Coord) : counterFits x = decide (counterX x ≤ 255) := rfl

end Sys2Proof.Machine
end

