-- ==== Sys2Proof/Tests/Slice0.lean ====
section
/-! SUPPORT. The model's own tests: the well-formedness smoke, one request word per operation written out from 30_encoding R82,
single micro-steps with the values of 95_test_vectors, and for every obligation with hypotheses a named witness that meets
them, each clause at a boundary of its range. -/

namespace Sys2Proof.Tests

open Sys2Proof Sys2Proof.Machine

/-! ### Well-formedness (R82, R84): a call that does not fit its field is refused, the largest that fits is not -/

theorem test_wf_code : (Call.sendCommand 255).wellFormed = true ∧ (Call.sendCommand 256).wellFormed = false := by decide
theorem test_wf_payload_byte : (Call.sendData [0, 255]).wellFormed = true ∧ (Call.sendData [256]).wellFormed = false := by decide
theorem test_wf_command_and_payload :
    (Call.sendCommandWithData 255 [255]).wellFormed = true ∧ (Call.sendCommandWithData 256 []).wellFormed = false ∧
      (Call.sendCommandWithData 0 [256]).wellFormed = false := by decide
theorem test_wf_value_count :
    (Call.repeatByte 255 4294967295).wellFormed = true ∧ (Call.repeatByte 256 0).wellFormed = false ∧
      (Call.repeatByte 0 4294967296).wellFormed = false := by decide
theorem test_wf_durations :
    (Call.reset 4294967295 4294967295).wellFormed = true ∧ (Call.reset 4294967296 0).wellFormed = false ∧
      (Call.reset 0 4294967296).wellFormed = false := by decide
theorem test_wf_rectangle :
    (Call.computeWindow 65535 65535 65535 65535).wellFormed = true ∧
      (Call.computeWindow 65536 0 0 0).wellFormed = false ∧ (Call.computeWindow 0 65536 0 0).wellFormed = false ∧
      (Call.computeWindow 0 0 65536 0).wellFormed = false ∧ (Call.computeWindow 0 0 0 65536).wellFormed = false := by decide
theorem test_wf_point :
    (Call.computeCounter 65535 65535).wellFormed = true ∧ (Call.computeCounter 65536 0).wellFormed = false ∧
      (Call.computeCounter 0 65536).wellFormed = false := by decide
theorem test_wf_byte : (Call.expand 255).wellFormed = true ∧ (Call.expand 256).wellFormed = false := by decide
theorem test_wf_payload_length :
    (Instr.sendData 2).payloadFits [1, 2] = true ∧ (Instr.sendData 2).payloadFits [1] = false ∧
      (Instr.expand 0).payloadFits [1] = false := by decide
theorem test_ill_formed_assembles_to_nothing : (Call.expand 256).assemble = none := by decide
theorem test_payload_too_long (bytes : List Nat) (h : bytes.length = 4294967296) :
    (Call.sendData bytes).wellFormed = false := by
  simp [Call.wellFormed, fitsPayload, fitsBits, h]

/-! ### Decoding (R80 to R86): a word per operation, written out as `op ‖ B ‖ A` -/

/-- 0x01, B = 0, A = 0x000000 ‖ code. -/
theorem test_decode_sendCommand : decode (0x01#8 ++ 0x00000000#32 ++ 0x000000#24 ++ 0x12#8) = .instr (.sendCommand 0x12) := by
  decide
/-- 0x02, B = len, A = 0. -/
theorem test_decode_sendData : decode (0x02#8 ++ 0x00000003#32 ++ 0x00000000#32) = .instr (.sendData 3) := by decide
/-- 0x03, B = len, A = 0x000000 ‖ code. -/
theorem test_decode_sendCommandWithData :
    decode (0x03#8 ++ 0x00000002#32 ++ 0x000000#24 ++ 0x44#8) = .instr (.sendCommandWithData 0x44 2) := by decide
/-- 0x04, B = count = 5000, A = 0x000000 ‖ value. -/
theorem test_decode_repeatByte :
    decode (0x04#8 ++ 0x00001388#32 ++ 0x000000#24 ++ 0xFF#8) = .instr (.repeatByte 0xFF 5000) := by decide
/-- 0x05, B = durationAfterMs, A = durationLowMs. -/
theorem test_decode_reset : decode (0x05#8 ++ 0x000000C8#32 ++ 0x0000000A#32) = .instr (.reset 10 200) := by decide
/-- 0x06, B = 0, A = 31 zero bits ‖ busyActiveLow. -/
theorem test_decode_waitUntilIdle :
    decode (0x06#8 ++ 0x00000000#32 ++ 0#31 ++ 1#1) = .instr (.waitUntilIdle true) ∧
      decode (0x06#8 ++ 0x00000000#32 ++ 0#31 ++ 0#1) = .instr (.waitUntilIdle false) := by decide
/-- 0x07, B = height ‖ width, A = y ‖ x. -/
theorem test_decode_computeWindow :
    decode (0x07#8 ++ 46#16 ++ 28#16 ++ 250#16 ++ 100#16) =
      .instr (.computeWindow { x := 100, y := 250, width := 28, height := 46 }) := by decide
/-- 0x08, B = 0, A = y ‖ x. -/
theorem test_decode_computeCounter :
    decode (0x08#8 ++ 0x00000000#32 ++ 300#16 ++ 7#16) = .instr (.computeCounter 7 300) := by decide
/-- 0x09, B = 0, A = 0x000000 ‖ byte. -/
theorem test_decode_expand : decode (0x09#8 ++ 0x00000000#32 ++ 0x000000#24 ++ 0xA5#8) = .instr (.expand 0xA5) := by decide
/-- R83, R86: a must-be-zero bit set, at the bottom and at the top of its field, and the codes beside the nine. -/
theorem test_decode_reserved :
    decode 0x010000000000000100#72 = .reserved (.mustBeZero 0x01) ∧ decode 0x018000000000000000#72 = .reserved (.mustBeZero 0x01) ∧
      decode 0x020000000080000000#72 = .reserved (.mustBeZero 0x02) ∧ decode 0x060000000000000002#72 = .reserved (.mustBeZero 0x06) ∧
      decode 0x080000000100000000#72 = .reserved (.mustBeZero 0x08) ∧ decode 0x000000000000000000#72 = .reserved (.opcode 0x00) ∧
      decode 0x0A0000000000000000#72 = .reserved (.opcode 0x0A) ∧ decode 0xFF0000000000000000#72 = .reserved (.opcode 0xFF) := by
  decide
theorem test_encode_repeatByte : encode (.repeatByte 0xFF 5000) = 0x0400001388000000FF#72 := by decide
theorem test_table_word : decodeTableWord 72 0x0500000001FFFFFFFF = some (.reset 0xFFFFFFFF 1) := by decide
/-- R90: the source's own spelling of the call. -/
theorem test_text_repeatByte : (Call.repeatByte 255 5000).text = "repeatByte(255, 5000)".toList := by decide
theorem test_text_waitUntilIdle :
    (Call.waitUntilIdle true).text = "waitUntilIdle(busyActiveLow=true)".toList := by decide

/-- R90: numbers in hexadecimal and decimal, calls separated by `;` and by a line end. -/
theorem test_parse_program :
    parseProgram "repeatByte(0xFF, 5000); sendData([1,0x18])\nwaitUntilIdle(busyActiveLow=true)".toList =
      some [.repeatByte 255 5000, .sendData [1, 24], .waitUntilIdle true] := by decide
theorem test_parse_empty_payload : parseProgram "sendCommandWithData(68, [])".toList = some [.sendCommandWithData 68 []] := by
  decide
/-- A rectangle in braces is read back as it is written. -/
theorem test_parse_rectangle :
    parseProgram (Call.computeWindow 0 0 200 200).text = some [.computeWindow 0 0 200 200] := by decide
theorem test_parse_refuses : parseProgram "readStatus(1)".toList = none := by decide

/-! ### Single micro-steps -/

/-- The reset state in a given phase. -/
def inPhase (ph : Phase) : State := { State.reset with ph := ph }

/-- The reset state with one request presented. -/
def asking (i : Instr) (payload : List Byte) : State := { State.reset with req := [⟨encode i, payload⟩] }

/-- The reset state in a given phase of an operation whose request has been accepted. -/
def running (i : Instr) (ph : Phase) : State :=
  { State.reset with ph := ph, opr := i.opcode, b := i.operandB, a := i.operandA }

/-- T1: S1 writes `DC` low; T3: a write of the level already held is an event too. -/
theorem test_sendCommand_S1 : step (running (.sendCommand 0x12) .sendCommandS1) =
    .next { running (.sendCommand 0x12) .sendCommandS2 with log := [.lineDC false] } := rfl
/-- T2: a failed transfer is an event, and A1 comes next. -/
theorem test_sendCommand_S3_fails :
    step { running (.sendCommand 0x12) .sendCommandS3 with csel := true, bus := ⟨[some .fail], some .ok⟩ } =
      .next { running (.sendCommand 0x12) (.abortA1 .busError) with
        csel := true, bus := ⟨[], some .ok⟩, log := [.tx 0x12 .fail] } := rfl
/-- T5: byte 1 of the payload is read at index 1. -/
theorem test_sendData_S3_reads :
    step { running (.sendData 3) .sendDataS3 with csel := true, dc := true, idx := 1, pay := [0xA1, 0xB2, 0xC3] } =
      .next { running (.sendData 3) (.sendDataS3Tx 0xB2) with
        csel := true, dc := true, idx := 1, pay := [0xA1, 0xB2, 0xC3], log := [.payRd 1 0xB2] } := rfl
/-- T4: with length 0 the loop ends before its first byte. -/
theorem test_sendData_S3_empty :
    step { running (.sendData 0) .sendDataS3 with csel := true, dc := true } =
      .next { running (.sendData 0) .sendDataS4 with csel := true, dc := true } := rfl
/-- T8: `DC` switches inside the select window. -/
theorem test_sendCommandWithData_S4 :
    step { running (.sendCommandWithData 0x44 2) .sendCommandWithDataS4 with csel := true } =
      .next { running (.sendCommandWithData 0x44 2) .sendCommandWithDataS5 with
        csel := true, dc := true, log := [.lineDC true] } := rfl
/-- T8: the command byte is the operand's. -/
theorem test_sendCommandWithData_S3 :
    step { running (.sendCommandWithData 0x44 2) .sendCommandWithDataS3 with csel := true } =
      .next { running (.sendCommandWithData 0x44 2) .sendCommandWithDataS4 with csel := true, log := [.tx 0x44 .ok] } := rfl
/-- T12: the index advances with the byte. -/
theorem test_repeatByte_S3 :
    step { running (.repeatByte 0xFF 3) .repeatByteS3 with csel := true, dc := true, idx := 2 } =
      .next { running (.repeatByte 0xFF 3) .repeatByteS3 with csel := true, dc := true, idx := 3, log := [.tx 0xFF .ok] } := rfl
/-- T12: the loop ends at `count`. -/
theorem test_repeatByte_S3_done :
    step { running (.repeatByte 0xFF 3) .repeatByteS3 with csel := true, dc := true, idx := 3 } =
      .next { running (.repeatByte 0xFF 3) .repeatByteS4 with csel := true, dc := true, idx := 3 } := rfl
/-- T15: the first delay is `durationLowMs`. -/
theorem test_reset_S2 : step { running (.reset 10 200) .resetS2 with rst := false } =
    .next { running (.reset 10 200) .resetS3 with rst := false, log := [.dly 10] } := rfl
/-- T15: the second delay is `durationAfterMs`. -/
theorem test_reset_S4 : step (running (.reset 10 200) .resetS4) =
    .next { running (.reset 10 200) .resetS5 with log := [.dly 200] } := rfl
/-- S7: with `busyActiveLow`, a low level is busy and is sampled again. -/
theorem test_waitUntilIdle_busy : step (running (.waitUntilIdle true) .waitUntilIdleS2) =
    .next { running (.waitUntilIdle true) .waitUntilIdleS2 with npoll := 1, log := [.smp false] } := rfl
/-- R116: the sample that makes the count `WAIT_LIMIT` raises `Timeout`. -/
theorem test_waitUntilIdle_timeout :
    step { running (.waitUntilIdle true) .waitUntilIdleS2 with waitLimit := 3, npoll := 2 } =
      .next { running (.waitUntilIdle true) (.abortA1 .timeout) with waitLimit := 3, npoll := 3, log := [.smp false] } := rfl
/-- S3: the source's example, `RES = 0x00C800001800`. -/
theorem test_computeWindow_S1 : step (running (.computeWindow ⟨0, 0, 200, 200⟩) .computeWindowS1) =
    .next { running (.computeWindow ⟨0, 0, 200, 200⟩) .computeWindowS2 with res := 0x00C800001800 } := rfl
/-- R155: one column past the last that fits. -/
theorem test_computeWindow_outside : step (running (.computeWindow ⟨2047, 0, 2, 1⟩) .computeWindowS1) =
    .refused .resultOutOfRange := rfl
/-- R154: `y = 0x012C` splits into 0x2C and 0x01; `x = 15` lies in byte 1. -/
theorem test_computeCounter_S1 : step (running (.computeCounter 15 300) .computeCounterS1) =
    .next { running (.computeCounter 15 300) .computeCounterS2 with res := 0x012C01 } := rfl
theorem test_computeCounter_outside : step (running (.computeCounter 2048 0) .computeCounterS1) =
    .refused .resultOutOfRange := rfl
/-- R170, R174: `0xA5` is `e(0xA) ‖ e(0x5)` = `0xCC33`. -/
theorem test_expand_S1 : step (running (.expand 0xA5) .expandS1) =
    .next { running (.expand 0xA5) .expandS2 with res := 0xCC33 } := rfl
/-- R86: a reserved word is accepted, and A1 comes next. -/
theorem test_reserved_accepted : step { State.reset with req := [⟨0x060000000000000002#72, []⟩] } =
    .next { State.reset with
      ph := .abortA1 .illegalRequest, opr := 0x06, a := 2, log := [.req 0x060000000000000002#72] } := rfl
/-- R187: A2 releases an asserted chip-select. -/
theorem test_abort_A2 : step { inPhase .abortA2 with csel := true } =
    .next { inPhase .abortA3 with log := [.lineCS false] } := rfl
/-- R210: `hrst` wins over a bus transfer in progress. -/
theorem test_block_reset :
    step { running (.sendCommand 0x12) .sendCommandS3 with csel := true, hrst := [true] } = .next State.reset := rfl
/-- R87: the response word `status ‖ result`. -/
theorem test_response_word : responseWord 2 0 = 0x2000000000000#51 := by decide

/-! ### Witnesses of the obligations' hypotheses -/

theorem witness_LegalWordEncodesBack : decode 0x0500000001FFFFFFFF#72 = .instr (.reset 0xFFFFFFFF 1) := by decide

/-- A word no row matches, a word with a meaning, and a word a row matches. -/
theorem witness_DecoderFollowsTable :
    (∃ why, decode 0x010000000000000100#72 = .reserved why) ∧ decode 0x060000000000000001#72 = .instr (.waitUntilIdle true) ∧
      (rowWaitUntilIdle ∈ opcodeTable ∧ 0x060000000000000001#72 &&& rowWaitUntilIdle.mask = rowWaitUntilIdle.bits) :=
  ⟨⟨.mustBeZero 0x01, by decide⟩, by decide, by decide⟩

theorem witness_IllegalRequestAnswered :
    (∀ r ∈ opcodeTable, 0x0A0000000000000000#72 &&& r.mask ≠ r.bits) ∧
      ({ State.reset with req := [⟨0x0A0000000000000000#72, []⟩] } : State).ph = .idle := by decide

/-- Calls just out of range, and calls at the top of their ranges. -/
theorem witness_CallsAssemble :
    (¬ callInRange (.expand 256) ∧ ¬ callInRange (.computeWindow 0 0 0 65536) ∧ ¬ callInRange (.reset 0 4294967296)) ∧
    (callInRange (.sendCommandWithData 255 [0, 255]) ∧ callInRange (.computeWindow 65535 0 0 65535) ∧
      callInRange (.reset 4294967295 0)) := by
  simp [callInRange]

theorem witness_BlockResetAbandons :
    ({ running (.sendData 1) .sendDataS3 with hrst := [true, false] } : State).hrst = true :: [false] := rfl

/-- At acceptance, in an operation, with nothing to do, and for a word presented. -/
theorem witness_StepRunsDecodedRequest :
    (State.reset.hrst.head? ≠ some true ∧ (asking (.expand 1) []).req = ⟨encode (.expand 1), []⟩ :: [] ∧
      decode (encode (.expand 1)) = .instr (.expand 1)) ∧
    (decode (latchedWord (running (.expand 1) .expandS1)) = .instr (.expand 1) ∧
      phaseOpcode (running (.expand 1) .expandS1).ph = some (Instr.expand 1).opcode) ∧
    (State.reset.ph = .idle ∧ State.reset.req = []) ∧
    decodeTableWord 72 0x090000000000000001 = some (.expand 1) := by decide

/-- A state inside a select window that meets the invariant. -/
theorem consistent_sendCommandS3 : Consistent { running (.sendCommand 0x12) .sendCommandS3 with csel := true } where
  select := rfl
  level := by decide
  reset := rfl
  latched := by
    rintro _ ⟨⟩
    exact ⟨.sendCommand 0x12, by decide, rfl⟩
  status := by decide
  running := by decide
  result := by decide
  index := trivial
  polls := trivial
  samples := by rintro _ ⟨⟩
  cause := trivial

theorem consistent_sendCommandWithDataS4 :
    Consistent { running (.sendCommandWithData 0x44 1) .sendCommandWithDataS4 with csel := true } where
  select := rfl
  level := by decide
  reset := rfl
  latched := by
    rintro _ ⟨⟩
    exact ⟨.sendCommandWithData 0x44 1, by decide, rfl⟩
  status := by decide
  running := by decide
  result := by decide
  index := rfl
  polls := trivial
  samples := by rintro _ ⟨⟩
  cause := trivial

/-- At a data byte, the index at the last one. -/
theorem consistent_sendDataS3Tx :
    Consistent { running (.sendData 1) (.sendDataS3Tx 0xA1) with csel := true, dc := true } where
  select := rfl
  level := by decide
  reset := rfl
  latched := by
    rintro _ ⟨⟩
    exact ⟨.sendData 1, by decide, rfl⟩
  status := by decide
  running := by decide
  result := by decide
  index := by
    show (0 : Word32) < 1
    decide
  polls := trivial
  samples := by rintro _ ⟨⟩
  cause := trivial

theorem consistent_repeatByteS3 :
    Consistent { running (.repeatByte 0xFF 1) .repeatByteS3 with csel := true, dc := true } where
  select := rfl
  level := by decide
  reset := rfl
  latched := by
    rintro _ ⟨⟩
    exact ⟨.repeatByte 0xFF 1, by decide, rfl⟩
  status := by decide
  running := by decide
  result := by decide
  index := by
    show (0 : Word32) ≤ 1
    decide
  polls := trivial
  samples := by rintro _ ⟨⟩
  cause := trivial

theorem consistent_sendCommandWithDataS3 :
    Consistent { running (.sendCommandWithData 0x44 1) .sendCommandWithDataS3 with csel := true } where
  select := rfl
  level := by decide
  reset := rfl
  latched := by
    rintro _ ⟨⟩
    exact ⟨.sendCommandWithData 0x44 1, by decide, rfl⟩
  status := by decide
  running := by decide
  result := by decide
  index := rfl
  polls := trivial
  samples := by rintro _ ⟨⟩
  cause := trivial

theorem consistent_sendCommandWithDataS5Tx :
    Consistent { running (.sendCommandWithData 0x44 1) (.sendCommandWithDataS5Tx 0) with csel := true, dc := true } where
  select := rfl
  level := by decide
  reset := rfl
  latched := by
    rintro _ ⟨⟩
    exact ⟨.sendCommandWithData 0x44 1, by decide, rfl⟩
  status := by decide
  running := by decide
  result := by decide
  index := by
    show (0 : Word32) < 1
    decide
  polls := trivial
  samples := by rintro _ ⟨⟩
  cause := trivial

/-- About to answer `BusError`: the transfer failed and chip-select was released. -/
def answeringBusError : State :=
  { running (.sendCommand 0x12) .abortA3 with st := 1, log := [.lineCS false, .tx 0x12 .fail] }

theorem consistent_answeringBusError : Consistent answeringBusError where
  select := rfl
  level := by decide
  reset := rfl
  latched := by rintro _ ⟨⟩
  status := by decide
  running := by decide
  result := by decide
  index := trivial
  polls := trivial
  samples := by rintro _ ⟨⟩
  cause := ⟨.busError, [.tx 0x12 .fail], rfl, rfl, .sendCommand 0x12, 0x12, [], by decide, rfl, rfl⟩

/-- About to answer `InvalidWindow`. -/
def answeringInvalidWindow : State := { running (.computeWindow ⟨65535, 65535, 0, 1⟩) .abortA3 with st := 2 }

theorem consistent_answeringInvalidWindow : Consistent answeringInvalidWindow where
  select := rfl
  level := by decide
  reset := rfl
  latched := by rintro _ ⟨⟩
  status := by decide
  running := by decide
  result := by decide
  index := trivial
  polls := trivial
  samples := by rintro _ ⟨⟩
  cause := ⟨.invalidWindow, [], rfl, rfl, ⟨65535, 65535, 0, 1⟩, by decide, by decide⟩

/-- About to answer `Timeout`, after one busy sample under `WAIT_LIMIT` 1. -/
def answeringTimeout : State :=
  { running (.waitUntilIdle true) .abortA3 with st := 3, waitLimit := 1, npoll := 1, log := [.smp false] }

theorem consistent_answeringTimeout : Consistent answeringTimeout where
  select := rfl
  level := by decide
  reset := rfl
  latched := by rintro _ ⟨⟩
  status := by decide
  running := by decide
  result := by decide
  index := trivial
  polls := trivial
  samples := by rintro _ ⟨⟩
  cause := ⟨.timeout, [.smp false], rfl, rfl, true, by decide, by decide, [], rfl⟩

/-- About to answer `IllegalRequest`. -/
def answeringIllegalRequest : State := { inPhase .abortA3 with opr := 0x0A, st := 4 }

theorem consistent_answeringIllegalRequest : Consistent answeringIllegalRequest where
  select := rfl
  level := by decide
  reset := rfl
  latched := by rintro _ ⟨⟩
  status := by decide
  running := by decide
  result := by decide
  index := trivial
  polls := trivial
  samples := by rintro _ ⟨⟩
  cause := ⟨.illegalRequest, [], rfl, rfl, .opcode 0x0A, by decide⟩

/-- A `waitUntilIdle` after one busy sample, one below its limit. -/
theorem consistent_waitUntilIdleS2 :
    Consistent { running (.waitUntilIdle true) .waitUntilIdleS2 with waitLimit := 2, npoll := 1, log := [.smp false] } where
  select := rfl
  level := by decide
  reset := rfl
  latched := by
    rintro _ ⟨⟩
    exact ⟨.waitUntilIdle true, by decide, rfl⟩
  status := by decide
  running := by decide
  result := by decide
  index := trivial
  polls := by
    intro _
    decide
  samples := by
    intro p _ hd
    rw [show decode (latchedWord _) = .instr (.waitUntilIdle true) from by decide] at hd
    cases hd
    exact ⟨[], rfl⟩
  cause := trivial

/-- At A2 of a degenerate `computeWindow`, and of a `waitUntilIdle` that has timed out. -/
theorem consistent_computeWindowA2 :
    Consistent { running (.computeWindow ⟨65535, 65535, 0, 1⟩) .abortA2 with st := 2 } where
  select := rfl
  level := by decide
  reset := rfl
  latched := by rintro _ ⟨⟩
  status := by decide
  running := by decide
  result := by decide
  index := trivial
  polls := trivial
  samples := by rintro _ ⟨⟩
  cause := ⟨.invalidWindow, rfl, ⟨65535, 65535, 0, 1⟩, by decide, by decide⟩

theorem consistent_waitUntilIdleA2 :
    Consistent { running (.waitUntilIdle true) .abortA2 with st := 3, waitLimit := 1, npoll := 1, log := [.smp false] } where
  select := rfl
  level := by decide
  reset := rfl
  latched := by rintro _ ⟨⟩
  status := by decide
  running := by decide
  result := by decide
  index := trivial
  polls := trivial
  samples := by rintro _ ⟨⟩
  cause := ⟨.timeout, rfl, true, by decide, by decide, [], rfl⟩

theorem witness_StepKeepsInvariant :
    ∃ t, step { running (.sendCommand 0x12) .sendCommandS3 with csel := true } = .next t ∧ t.ph = .sendCommandS4 := ⟨_, rfl, rfl⟩

theorem witness_OneEventPerStep : ∃ t, step (running (.expand 1) .expandS2) = .next t ∧ t.trace = [.rsp 0 0] := ⟨_, rfl, rfl⟩

theorem witness_RequestWaitsWhileBusy :
    ∃ t, step { asking (.expand 1) [] with ph := .abortA1 .busError } = .next t ∧ t.req = (asking (.expand 1) []).req :=
  ⟨_, rfl, rfl⟩

theorem witness_OtherRequestMakesNoMove :
    phaseOpcode (inPhase .expandS1).ph = some 0x09 ∧ (Instr.sendCommand 0).opcode ≠ 0x09#8 := by decide

theorem witness_WaitLimitNeverWritten : ∃ t, run 2 { asking (.expand 1) [] with waitLimit := 7 } = .next t := ⟨_, rfl⟩

theorem witness_ResponseLeavesBusDeselected :
    ∃ t, step answeringBusError = .next t ∧ t.trace = answeringBusError.trace ++ [.rsp 1 0] := ⟨_, rfl, rfl⟩

/-- A command byte in each operation that sends one, and a data byte in each operation that sends them. -/
theorem witness_TransmitsOnlyWhileSelected :
    (∃ t, step { running (.sendCommand 0x12) .sendCommandS3 with csel := true } = .next t ∧ t.trace = [] ++ [.tx 0x12 .ok]) ∧
    (∃ t, step { running (.sendCommandWithData 0x44 1) .sendCommandWithDataS3 with csel := true } = .next t ∧
      t.trace = [] ++ [.tx 0x44 .ok]) ∧
    (∃ t, step { running (.sendData 1) (.sendDataS3Tx 0xA1) with csel := true, dc := true } = .next t ∧
      t.trace = [] ++ [.tx 0xA1 .ok]) ∧
    (∃ t, step { running (.sendCommandWithData 0x44 1) (.sendCommandWithDataS5Tx 0) with csel := true, dc := true } = .next t ∧
      t.trace = [] ++ [.tx 0 .ok]) ∧
    (∃ t, step { running (.repeatByte 0xFF 1) .repeatByteS3 with csel := true, dc := true } = .next t ∧
      t.trace = [] ++ [.tx 0xFF .ok]) :=
  ⟨⟨_, rfl, rfl⟩, ⟨_, rfl, rfl⟩, ⟨_, rfl, rfl⟩, ⟨_, rfl, rfl⟩, ⟨_, rfl, rfl⟩⟩

theorem witness_FrameLevelStable :
    ∃ t, step { running (.sendCommandWithData 0x44 1) .sendCommandWithDataS4 with csel := true } = .next t ∧
      t.csel = true ∧ t.dc ≠ false := ⟨_, rfl, rfl, by decide⟩

/-- Each error status is answered somewhere. -/
theorem witness_ErrorStatusHasItsCause :
    (∃ t, step answeringBusError = .next t ∧ t.trace = answeringBusError.trace ++ [.rsp 1 0]) ∧
    (∃ t, step answeringInvalidWindow = .next t ∧ t.trace = answeringInvalidWindow.trace ++ [.rsp 2 0]) ∧
    (∃ t, step answeringTimeout = .next t ∧ t.trace = answeringTimeout.trace ++ [.rsp 3 0]) ∧
    (∃ t, step answeringIllegalRequest = .next t ∧ t.trace = answeringIllegalRequest.trace ++ [.rsp 4 0]) :=
  ⟨⟨_, rfl, rfl⟩, ⟨_, rfl, rfl⟩, ⟨_, rfl, rfl⟩, ⟨_, rfl, rfl⟩⟩

theorem witness_DeadLatchesUnobservable :
    sameButDeadLatches (asking (.sendData 1) [7])
      { asking (.sendData 1) [7] with
        opr := 0xFF, a := 1, b := 0xFFFFFFFF, idx := 9, npoll := 0xFFFFFFFF, st := 7, res := 1, pay := [1] } := ⟨rfl, rfl⟩

theorem consistent_abortA1 :
    Consistent { running (.sendCommand 0x12) (.abortA1 .busError) with csel := true, log := [.tx 0x12 .fail] } where
  select := rfl
  level := by decide
  reset := rfl
  latched := by rintro _ ⟨⟩
  status := by decide
  running := by decide
  result := by decide
  index := trivial
  polls := trivial
  samples := by rintro _ ⟨⟩
  cause := ⟨.sendCommand 0x12, 0x12, [], by decide, rfl, rfl⟩

theorem witness_AbortSequenceResponds :
    ({ running (.sendCommand 0x12) (.abortA1 .busError) with csel := true } : State).ph = .abortA1 .busError ∧
      (inPhase (.abortA1 .timeout)).hrst = [] := ⟨rfl, rfl⟩

/-! #### The micro-step tables: each clause's phase, and its condition at a boundary -/

theorem witness_SendCommandMicroSteps :
    (∀ ph ∈ [.idle, .sendCommandS1, .sendCommandS2, .sendCommandS4, .sendCommandS5], (inPhase ph).ph = ph) ∧
    ((inPhase .sendCommandS3).bus.head = some .ok) ∧
    (({ inPhase .sendCommandS3 with bus := ⟨[some .fail], some .ok⟩ } : State).bus.head = some .fail) ∧
    (({ inPhase .sendCommandS3 with bus := ⟨[none], some .ok⟩ } : State).bus.head = none) := ⟨by simp [inPhase], rfl, rfl, rfl⟩

theorem witness_SendDataMicroSteps :
    (∀ ph ∈ [.idle, .sendDataS1, .sendDataS2, .sendDataS4, .sendDataS5], (inPhase ph).ph = ph) ∧
    (inPhase .sendDataS3).idx = 0 ∧
    (({ inPhase .sendDataS3 with idx := 0, pay := [7] } : State).idx ≠ 1 ∧ [(7 : Byte)][(0 : Word32).toNat]? = some 7) ∧
    ((inPhase .sendDataS3).idx ≠ 1 ∧ (inPhase .sendDataS3).pay.length ≤ (inPhase .sendDataS3).idx.toNat) ∧
    ((inPhase (.sendDataS3Tx 7)).bus.head = some .ok) ∧
    (({ inPhase (.sendDataS3Tx 7) with bus := ⟨[some .fail], some .ok⟩ } : State).bus.head = some .fail) ∧
    (({ inPhase (.sendDataS3Tx 7) with bus := ⟨[none], some .ok⟩ } : State).bus.head = none) :=
  ⟨by simp [inPhase], rfl, by decide, by decide, rfl, rfl, rfl⟩

theorem witness_SendCommandWithDataMicroSteps :
    (∀ ph ∈ [.idle, .sendCommandWithDataS1, .sendCommandWithDataS2, .sendCommandWithDataS4, .sendCommandWithDataS6,
      .sendCommandWithDataS7], (inPhase ph).ph = ph) ∧
    (inPhase .sendCommandWithDataS5).idx = 0 ∧
    (({ inPhase .sendCommandWithDataS5 with idx := 0, pay := [7] } : State).idx ≠ 1 ∧
      [(7 : Byte)][(0 : Word32).toNat]? = some 7) ∧
    ((inPhase .sendCommandWithDataS5).idx ≠ 1 ∧
      (inPhase .sendCommandWithDataS5).pay.length ≤ (inPhase .sendCommandWithDataS5).idx.toNat) ∧
    ((inPhase .sendCommandWithDataS3).bus.head = some .ok ∧ (inPhase (.sendCommandWithDataS5Tx 7)).bus.head = some .ok) ∧
    (∀ ph ∈ [.sendCommandWithDataS3, .sendCommandWithDataS5Tx 7],
      ({ inPhase ph with bus := ⟨[some .fail], some .ok⟩ } : State).bus.head = some .fail ∧
      ({ inPhase ph with bus := ⟨[none], some .ok⟩ } : State).bus.head = none) :=
  ⟨by simp [inPhase], rfl, by decide, by decide, by decide, by decide⟩

theorem witness_RepeatByteMicroSteps :
    (∀ ph ∈ [.idle, .repeatByteS1, .repeatByteS2, .repeatByteS4, .repeatByteS5], (inPhase ph).ph = ph) ∧
    (inPhase .repeatByteS3).idx = 0 ∧
    ((inPhase .repeatByteS3).idx ≠ 1 ∧ (inPhase .repeatByteS3).bus.head = some .ok) ∧
    (({ inPhase .repeatByteS3 with bus := ⟨[some .fail], some .ok⟩ } : State).bus.head = some .fail) ∧
    (({ inPhase .repeatByteS3 with bus := ⟨[none], some .ok⟩ } : State).bus.head = none) :=
  ⟨by simp [inPhase], rfl, by decide, rfl, rfl⟩

theorem witness_ResetMicroSteps :
    (∀ ph ∈ [.idle, .resetS1, .resetS3, .resetS5], (inPhase ph).ph = ph) ∧
    (∀ ph ∈ [.resetS2, .resetS4], (inPhase ph).dly.head = .completed ∧
      ({ inPhase ph with dly := ⟨[.pending], .completed⟩ } : State).dly.head = .pending) := by simp [inPhase]; decide

/-- An idle and a busy sample; the first count, the saturated count, and the count that is the limit. -/
theorem witness_WaitUntilIdleMicroSteps :
    (∀ ph ∈ [.idle, .waitUntilIdleS1, .waitUntilIdleS3], (inPhase ph).ph = ph) ∧
    ((inPhase .waitUntilIdleS2).busy.head = false ∧ (inPhase .waitUntilIdleS2).busy.head ≠ true) ∧
    ((1 : Word32).toNat = min ((0 : Word32).toNat + 1) (2 ^ 32 - 1) ∧ (inPhase .waitUntilIdleS2).waitLimit = 0) ∧
    ((0xFFFFFFFF : Word32).toNat = min ((0xFFFFFFFF : Word32).toNat + 1) (2 ^ 32 - 1)) ∧
    (({ inPhase .waitUntilIdleS2 with waitLimit := 1 } : State).waitLimit ≠ 0 ∧
      (1 : Word32) = ({ inPhase .waitUntilIdleS2 with waitLimit := 1 } : State).waitLimit) :=
  ⟨by simp [inPhase], by decide, by decide, by decide, by decide⟩

/-- The zero test, the largest window that fits and the smallest that does not, on each side. -/
theorem witness_ComputeWindowMicroSteps :
    (∀ ph ∈ [.idle, .computeWindowS1, .computeWindowS2], (inPhase ph).ph = ph) ∧
    ((⟨65535, 65535, 0, 1⟩ : Rectangle).width = 0 ∧ (⟨0, 0, 1, 0⟩ : Rectangle).height = 0) ∧
    (∀ r ∈ [(⟨2047, 65534, 1, 1⟩ : Rectangle), ⟨0, 0, 2048, 65535⟩], r.width ≠ 0 ∧ r.height ≠ 0 ∧
      (r.x.toNat + r.width.toNat - 1) >>> 3 ≤ 255 ∧ r.y.toNat + r.height.toNat ≤ 65535) ∧
    (∀ r ∈ [(⟨2047, 0, 2, 1⟩ : Rectangle), ⟨0, 65535, 1, 1⟩], r.width ≠ 0 ∧ r.height ≠ 0 ∧
      (255 < (r.x.toNat + r.width.toNat - 1) >>> 3 ∨ 65535 < r.y.toNat + r.height.toNat)) :=
  ⟨by simp [inPhase], by decide, by decide, by decide⟩

theorem witness_ComputeCounterMicroSteps :
    (∀ ph ∈ [.idle, .computeCounterS1, .computeCounterS2], (inPhase ph).ph = ph) ∧
    (2047 : Coord).toNat ≤ 2047 ∧ 2047 < (2048 : Coord).toNat := ⟨by simp [inPhase], by decide, by decide⟩

theorem witness_ExpandMicroSteps : ∀ ph ∈ [.idle, .expandS1, .expandS2], (inPhase ph).ph = ph := by simp [inPhase]

/-! #### Whole operations -/

/-- Any operation can be presented to the machine after reset, with any payload. -/
theorem witness_presents (i : Instr) (payload : List Byte) : Presents (asking i payload) i payload [] := ⟨rfl, rfl, rfl⟩

theorem draws_rest {α : Type} (x : α) (k : Nat) : ((⟨[], x⟩ : Draws α).drop k).head = x := by simp [Draws.drop, Draws.head]

/-- The bus after reset answers `ok` for ever, so for frames of every length. -/
theorem witness_allOk (n : Nat) : allOk State.reset.bus n := fun k _ => draws_rest _ k

theorem witness_SendCommandRuns :
    (asking (.sendCommand 0x12) []).bus.head = some .ok ∧
      ({ asking (.sendCommand 0x12) [] with bus := ⟨[some .fail], some .ok⟩ } : State).bus.head = some .fail := ⟨rfl, rfl⟩

/-- Lengths 0 and 3. -/
theorem witness_SendDataRuns :
    (Presents (asking (.sendData 0) []) (.sendData 0) [] [] ∧ ([] : List Byte).length = (0 : Word32).toNat ∧
      allOk (asking (.sendData 0) []).bus (0 : Word32).toNat) ∧
    (Presents (asking (.sendData 3) [1, 2, 3]) (.sendData 3) [1, 2, 3] [] ∧
      ([1, 2, 3] : List Byte).length = (3 : Word32).toNat ∧ allOk (asking (.sendData 3) [1, 2, 3]).bus (3 : Word32).toNat) :=
  ⟨⟨witness_presents _ _, rfl, witness_allOk _⟩, witness_presents _ _, rfl, witness_allOk _⟩

/-- The first byte fails; the last byte fails. -/
theorem witness_failsAt :
    failsAt ⟨[some .fail], some .ok⟩ 0 ∧ failsAt ⟨[some .ok, some .fail], some .ok⟩ 1 := by
  refine ⟨⟨by simp [allOk], rfl⟩, ?_, rfl⟩
  intro k hk
  obtain rfl : k = 0 := by omega
  rfl

theorem witness_SendDataFails :
    Presents { asking (.sendData 2) [1, 2] with bus := ⟨[some .ok, some .fail], some .ok⟩ } (.sendData 2) [1, 2] [] ∧
      1 < (2 : Word32).toNat ∧ ([1, 2] : List Byte)[1]? = some 2 := ⟨⟨rfl, rfl, rfl⟩, by decide, rfl⟩

theorem witness_SendCommandWithDataRuns :
    Presents (asking (.sendCommandWithData 0x44 0) []) (.sendCommandWithData 0x44 0) [] [] ∧
      ([] : List Byte).length = (0 : Word32).toNat ∧
      allOk (asking (.sendCommandWithData 0x44 0) []).bus ((0 : Word32).toNat + 1) :=
  ⟨witness_presents _ _, rfl, witness_allOk _⟩

/-- The command byte fails; the last data byte fails. -/
theorem witness_SendCommandWithDataFails :
    (({ asking (.sendCommandWithData 0x44 1) [7] with bus := ⟨[some .fail], some .ok⟩ } : State).bus.head = some .fail) ∧
    (Presents { asking (.sendCommandWithData 0x44 1) [7] with bus := ⟨[some .ok, some .fail], some .ok⟩ }
      (.sendCommandWithData 0x44 1) [7] [] ∧ 0 < (1 : Word32).toNat ∧ ([7] : List Byte)[0]? = some 7 ∧
      failsAt ⟨[some .ok, some .fail], some .ok⟩ (0 + 1)) := ⟨rfl, ⟨rfl, rfl, rfl⟩, by decide, rfl, witness_failsAt.2⟩

/-- Counts 0 and 5000. -/
theorem witness_RepeatByteRuns :
    (Presents (asking (.repeatByte 0xFF 0) []) (.repeatByte 0xFF 0) [] [] ∧
      allOk (asking (.repeatByte 0xFF 0) []).bus (0 : Word32).toNat) ∧
    (Presents (asking (.repeatByte 0xFF 5000) []) (.repeatByte 0xFF 5000) [] [] ∧
      allOk (asking (.repeatByte 0xFF 5000) []).bus (5000 : Word32).toNat) :=
  ⟨⟨witness_presents _ _, witness_allOk _⟩, witness_presents _ _, witness_allOk _⟩

theorem witness_RepeatByteFails :
    Presents { asking (.repeatByte 0xFF 2) [] with bus := ⟨[some .ok, some .fail], some .ok⟩ } (.repeatByte 0xFF 2) [] [] ∧
      1 < (2 : Word32).toNat ∧ failsAt ⟨[some .ok, some .fail], some .ok⟩ 1 := ⟨⟨rfl, rfl, rfl⟩, by decide, witness_failsAt.2⟩

theorem witness_ResetRuns :
    Presents (asking (.reset 10 200) []) (.reset 10 200) [] [] ∧ (asking (.reset 10 200) []).dly.head = .completed ∧
      (asking (.reset 10 200) []).dly.tail.head = .completed := ⟨witness_presents _ _, rfl, rfl⟩

/-- No busy sample with `WAIT_LIMIT` 1; one busy sample with no limit; one busy sample with `WAIT_LIMIT` 2. -/
theorem witness_WaitAnswersAtFirstIdle :
    (allBusy true ⟨[], true⟩ 0 ∧ busyState true ((⟨[], true⟩ : Draws Level).drop 0).head = false ∧ 0 < (1 : Word32).toNat) ∧
    (allBusy true ⟨[false], true⟩ 1 ∧ busyState true ((⟨[false], true⟩ : Draws Level).drop 1).head = false ∧
      State.reset.waitLimit = 0 ∧ 1 < (2 : Word32).toNat) := by
  refine ⟨⟨by simp [allBusy], rfl, by decide⟩, ?_, rfl, rfl, by decide⟩
  intro k hk
  obtain rfl : k = 0 := by omega
  rfl

/-- The busy pin after reset is low for ever: busy under `busyActiveLow`. -/
theorem witness_allBusy (n : Nat) : allBusy true State.reset.busy n := by
  intro k _
  show busyState true ((⟨[], false⟩ : Draws Level).drop k).head = true
  rw [draws_rest]
  rfl

theorem witness_WaitTimesOut :
    Presents { asking (.waitUntilIdle true) [] with waitLimit := 1 } (.waitUntilIdle true) [] [] ∧ (1 : Word32) ≠ 0 ∧
      allBusy true State.reset.busy (1 : Word32).toNat := ⟨⟨rfl, rfl, rfl⟩, by decide, witness_allBusy _⟩

theorem witness_UnboundedWaitHangs :
    Presents (asking (.waitUntilIdle true) []) (.waitUntilIdle true) [] [] ∧ State.reset.waitLimit = 0 ∧
      ∀ n, allBusy true State.reset.busy n := ⟨witness_presents _ _, rfl, witness_allBusy⟩

/-- The largest rectangle that fits, and a degenerate one. -/
theorem witness_ComputeWindowRuns :
    (Presents (asking (.computeWindow ⟨0, 0, 2048, 65535⟩) []) (.computeWindow ⟨0, 0, 2048, 65535⟩) [] [] ∧
      (0 : Coord).toNat + (2048 : Coord).toNat - 1 ≤ 2047 ∧ (0 : Coord).toNat + (65535 : Coord).toNat ≤ 65535) ∧
    (Presents (asking (.computeWindow ⟨65535, 65535, 0, 0⟩) []) (.computeWindow ⟨65535, 65535, 0, 0⟩) [] [] ∧
      State.reset.csel = false) := ⟨⟨witness_presents _ _, by decide, by decide⟩, witness_presents _ _, rfl⟩

theorem witness_CounterAndExpandRun :
    (Presents (asking (.computeCounter 2047 65535) []) (.computeCounter 2047 65535) [] [] ∧ (2047 : Coord).toNat ≤ 2047) ∧
      Presents (asking (.expand 0xFF) []) (.expand 0xFF) [] [] := ⟨⟨witness_presents _ _, by decide⟩, witness_presents _ _⟩

theorem witness_TwoOperationsTwoFrames :
    ({ State.reset with req := [⟨encode (.sendCommand 0x12), []⟩, ⟨encode (.sendData 3), [0xA1, 0xB2, 0xC3]⟩] } : State).req =
      ⟨encode (.sendCommand 0x12), []⟩ :: ⟨encode (.sendData 3), [0xA1, 0xB2, 0xC3]⟩ :: [] ∧ allOk State.reset.bus 4 :=
  ⟨rfl, witness_allOk _⟩

/-! #### Frames and values -/

theorem witness_FramingFrame :
    isFraming (.repeatByte 0xFF 1) = true ∧ ∃ t, exec (.repeatByte 0xFF 1) (inPhase .repeatByteS3) = .next t := ⟨rfl, _, rfl⟩

/-- Away from A2, and at A2 of a `waitUntilIdle` (consistent_waitUntilIdleA2 gives its premise). -/
theorem witness_ResetAndWaitFrame :
    (∃ t, exec (.reset 10 200) (inPhase .resetS1) = .next t) ∧
      (∃ t, exec (.waitUntilIdle true) (inPhase .waitUntilIdleS2) = .next t) ∧
      ((∃ t, exec (.waitUntilIdle true) { running (.waitUntilIdle true) .abortA2 with
          st := 3, waitLimit := 1, npoll := 1, log := [.smp false] } = .next t) ∧
        decode (latchedWord (running (.waitUntilIdle true) .abortA2)) = .instr (.waitUntilIdle true)) :=
  ⟨⟨_, rfl⟩, ⟨_, rfl⟩, ⟨_, rfl⟩, by decide⟩

/-- Away from A2, and at A2 of a degenerate `computeWindow` (consistent_computeWindowA2 gives its premise). -/
theorem witness_PureFrame :
    (isPure (.expand 1) = true ∧ ∃ t, exec (.expand 1) (inPhase .expandS1) = .next t) ∧
      (isPure (.computeWindow ⟨65535, 65535, 0, 1⟩) = true ∧
        (∃ t, exec (.computeWindow ⟨65535, 65535, 0, 1⟩)
          { running (.computeWindow ⟨65535, 65535, 0, 1⟩) .abortA2 with st := 2 } = .next t) ∧
        decode (latchedWord (running (.computeWindow ⟨65535, 65535, 0, 1⟩) .abortA2)) =
          .instr (.computeWindow ⟨65535, 65535, 0, 1⟩)) :=
  ⟨⟨rfl, _, rfl⟩, rfl, ⟨_, rfl⟩, by decide⟩

/-- One column at the left edge of a byte, and the widest rectangle of all. -/
theorem witness_WindowContainsRequest :
    1 ≤ (⟨8, 0, 1, 1⟩ : Rectangle).width.toNat ∧ 8 ∣ (⟨8, 0, 1, 1⟩ : Rectangle).x.toNat ∧
      1 ≤ (⟨65535, 0, 65535, 1⟩ : Rectangle).width.toNat := by decide

theorem witness_BufferSizedToRoundedWidth : 1 ≤ (⟨7, 0, 1, 65535⟩ : Rectangle).width.toNat := by decide

theorem witness_AlignedWindowExact : 8 ∣ (⟨65528, 0, 1, 1⟩ : Rectangle).x.toNat := by decide

/-- The largest panel with the rectangle that fills it, and a point in its last column. -/
theorem witness_PanelRectanglesFit :
    panelSizeOk 2048 65535 ∧ inPanel 2048 65535 ⟨0, 0, 2048, 65535⟩ ∧ 1 ≤ (⟨2047, 0, 1, 1⟩ : Rectangle).width.toNat ∧
      inPanel 2048 65535 ⟨2047, 0, 1, 1⟩ := by
  simp [panelSizeOk, inPanel, Config.panelWidthMax, Config.panelHeightMax]

theorem witness_ResultFieldsPacked :
    (windowFits ⟨2047, 65534, 1, 1⟩ = true ∧ 1 ≤ (⟨2047, 65534, 1, 1⟩ : Rectangle).width.toNat) ∧ counterFits 2047 = true := by
  decide

theorem witness_ExpandRoundTrip : 0 < 8 ∧ 7 < 8 := by decide

end Sys2Proof.Tests
end

section
/-! Proofs of the family 00_scope: what a call assembles to (O6), the events of a step (O13), and the rectangles whose result
fits its fields (O54). -/

namespace Sys2Proof

/-! ### The decoder reads back what the encoder writes (R82, R85) -/

/-- The operation codes are distinct and every must-be-zero bit of an encoded word is 0, so only the operation's own row
hits, and each operand lies alone in its field. -/
theorem decode_encode (i : Instr) : decode (encode i) = .instr i := by
  cases i <;>
    simp [decode, hits_sendCommand, hits_sendData, hits_sendCommandWithData, hits_repeatByte, hits_reset,
      hits_waitUntilIdle, hits_computeWindow, hits_computeCounter, hits_expand, Instr.opcode, Instr.operandA,
      Instr.operandB, fieldByte_eq, fieldFlag_eq, fieldX_eq, fieldY_eq, fieldWidth_eq, fieldHeight_eq,
      byteOperand_mask, flagOperand_mask]

/-! ### Calls and the numbers they carry (R7, R64, R82, R84) -/

theorem fitsBits_iff (width n : Nat) : fitsBits width n = true ↔ n < 2 ^ width := by simp [fitsBits]

theorem fitsPayload_iff (bytes : List Nat) :
    fitsPayload bytes = true ↔ (∀ b ∈ bytes, fitsBits 8 b = true) ∧ fitsBits 32 bytes.length = true := by
  simp [fitsPayload]

/-- A number that fits its field is read back from it. -/
theorem toNat_ofNat_of_fitsBits {width n : Nat} (h : fitsBits width n = true) : (BitVec.ofNat width n).toNat = n := by
  rw [BitVec.toNat_ofNat, Nat.mod_eq_of_lt ((fitsBits_iff width n).mp h)]

/-- Bytes that fit are read back from the payload. -/
theorem map_toNat_map_ofNat {bytes : List Nat} (h : ∀ b ∈ bytes, fitsBits 8 b = true) :
    (bytes.map (BitVec.ofNat 8)).map BitVec.toNat = bytes := by
  calc (bytes.map (BitVec.ofNat 8)).map BitVec.toNat
      = bytes.map fun b => (BitVec.ofNat 8 b).toNat := List.map_map
    _ = bytes.map id := List.map_congr_left fun b hb => toNat_ofNat_of_fitsBits (h b hb)
    _ = bytes := List.map_id bytes

namespace Machine

theorem fitsBits_8_iff (n : Nat) : fitsBits 8 n = true ↔ n ≤ 255 := by rw [fitsBits_iff]; omega
theorem fitsBits_16_iff (n : Nat) : fitsBits 16 n = true ↔ n ≤ 65535 := by rw [fitsBits_iff]; omega
theorem fitsBits_32_iff (n : Nat) : fitsBits 32 n = true ↔ n ≤ 4294967295 := by rw [fitsBits_iff]; omega

theorem wellFormed_iff_callInRange (c : Call) : c.wellFormed = true ↔ callInRange c := by
  cases c <;>
    simp [Call.wellFormed, callInRange, fitsPayload_iff, fitsBits_8_iff, fitsBits_16_iff, fitsBits_32_iff, and_assoc]

/-- A well-formed call's operation and payload carry the call's numbers: none is truncated by its field. -/
theorem callCarried_of_wellFormed (c : Call) (h : c.wellFormed = true) :
    callCarried c c.instr (c.bytes.map (BitVec.ofNat 8)) := by
  cases c with
  | sendCommand code => exact ⟨toNat_ofNat_of_fitsBits h, rfl⟩
  | sendData bytes =>
    obtain ⟨hbytes, hlen⟩ := (fitsPayload_iff bytes).mp h
    exact ⟨toNat_ofNat_of_fitsBits hlen, map_toNat_map_ofNat hbytes⟩
  | sendCommandWithData code bytes =>
    obtain ⟨hcode, hpayload⟩ := Bool.and_eq_true_iff.mp h
    obtain ⟨hbytes, hlen⟩ := (fitsPayload_iff bytes).mp hpayload
    exact ⟨toNat_ofNat_of_fitsBits hcode, toNat_ofNat_of_fitsBits hlen, map_toNat_map_ofNat hbytes⟩
  | repeatByte value count =>
    obtain ⟨hvalue, hcount⟩ := Bool.and_eq_true_iff.mp h
    exact ⟨toNat_ofNat_of_fitsBits hvalue, toNat_ofNat_of_fitsBits hcount, rfl⟩
  | reset low after =>
    obtain ⟨hlow, hafter⟩ := Bool.and_eq_true_iff.mp h
    exact ⟨toNat_ofNat_of_fitsBits hlow, toNat_ofNat_of_fitsBits hafter, rfl⟩
  | waitUntilIdle flag => exact ⟨rfl, rfl⟩
  | computeWindow x y width height =>
    simp only [Call.wellFormed, Bool.and_eq_true, and_assoc] at h
    obtain ⟨hx, hy, hwidth, hheight⟩ := h
    exact ⟨toNat_ofNat_of_fitsBits hx, toNat_ofNat_of_fitsBits hy, toNat_ofNat_of_fitsBits hwidth,
      toNat_ofNat_of_fitsBits hheight, rfl⟩
  | computeCounter x y =>
    obtain ⟨hx, hy⟩ := Bool.and_eq_true_iff.mp h
    exact ⟨toNat_ofNat_of_fitsBits hx, toNat_ofNat_of_fitsBits hy, rfl⟩
  | expand byte => exact ⟨toNat_ofNat_of_fitsBits h, rfl⟩

/-- A well-formed call's payload is as long as its word's length operand says (R84). -/
theorem payloadFits_of_wellFormed (c : Call) (h : c.wellFormed = true) :
    c.instr.payloadFits (c.bytes.map (BitVec.ofNat 8)) = true := by
  rw [Instr.payloadFits, decide_eq_true_iff, List.length_map]
  cases c with
  | sendData bytes =>
    obtain ⟨-, hlen⟩ := (fitsPayload_iff bytes).mp h
    exact (toNat_ofNat_of_fitsBits hlen).symm
  | sendCommandWithData code bytes =>
    obtain ⟨-, hpayload⟩ := Bool.and_eq_true_iff.mp h
    obtain ⟨-, hlen⟩ := (fitsPayload_iff bytes).mp hpayload
    exact (toNat_ofNat_of_fitsBits hlen).symm
  | _ => rfl

/-- Settles O6: well-formedness is the ranges of R82, and a number within its range survives its field. -/
theorem callsAssemble : Obligations.CallsAssemble := by
  refine ⟨fun c hc => ?_, fun c hc => ?_⟩
  · exact if_neg (mt (wellFormed_iff_callInRange c).mp hc)
  · have hwf : c.wellFormed = true := (wellFormed_iff_callInRange c).mpr hc
    exact ⟨⟨encode c.instr, c.bytes.map (BitVec.ofNat 8)⟩, c.instr, if_pos hwf, decode_encode c.instr,
      callCarried_of_wellFormed c hwf, payloadFits_of_wellFormed c hwf⟩

/-! ### Events of a step (R13) -/

/-- `t` has at most one event more than `s`, the newest one (R13). -/
def EmitsAtMostOne (s t : State) : Prop := t.log = s.log ∨ ∃ e, t.log = e :: s.log

theorem AbortMoves.emitsAtMostOne {s t : State} (h : AbortMoves s t) : EmitsAtMostOne s t := by
  cases h with
  | a1 | a2Released => exact .inl rfl
  | a2Release | a3 => exact .inr ⟨_, rfl⟩

/-- A transfer whose continuation emits nothing emits at most its own event. -/
theorem TxMoves.emitsAtMostOne {byte : Byte} {onOk : State → State} {s t : State} (h : TxMoves byte onOk s t)
    (hquiet : ∀ u, (onOk u).log = u.log) : EmitsAtMostOne s t := by
  cases h with
  | waits => exact .inl rfl
  | ok => exact .inr ⟨_, hquiet _⟩
  | fail => exact .inr ⟨_, rfl⟩

theorem Moves.emitsAtMostOne {i : Instr} {s t : State} (h : Moves i s t) : EmitsAtMostOne s t := by
  cases h with
  | abort _ _ _ habort => exact habort.emitsAtMostOne
  | sendCommandS3 _ _ _ _ htx | sendDataS3Tx _ _ _ _ _ htx | withDataS3 _ _ _ _ _ htx | withDataS5Tx _ _ _ _ _ _ htx
  | repeatByteS3 _ _ _ _ _ _ htx =>
    exact htx.emitsAtMostOne fun _ => rfl
  | noMove | sendDataS3Done | withDataS5Done | repeatByteS3Done | resetS2Waits | resetS4Waits | waitS1 | windowS1Invalid
  | windowS1 | counterS1 | expandS1 => exact .inl rfl
  | _ => exact .inr ⟨_, rfl⟩

theorem StepMoves.emitsAtMostOne {s t : State} (h : StepMoves s t) : EmitsAtMostOne s t := by
  cases h with
  | waits => exact .inl rfl
  | acceptsReserved => exact .inr ⟨_, rfl⟩
  | accepts _ _ _ _ _ _ _ hmove | operation _ _ _ _ hmove => exact hmove.emitsAtMostOne
  | aborts _ habort => exact habort.emitsAtMostOne

theorem step_emitsAtMostOne {s t : State} (h : step s = .next t) : EmitsAtMostOne s t := by
  rcases stepMoves_of_step s t h with ⟨levels, -, rfl⟩ | ⟨-, hmove⟩
  · exact .inl rfl
  · exact hmove.emitsAtMostOne

/-- Settles O13, by cases over the moves a step can make. -/
theorem oneEventPerStep : Obligations.OneEventPerStep := by
  intro s t h
  rcases step_emitsAtMostOne h with hlog | ⟨e, hlog⟩
  · exact .inl (congrArg List.reverse hlog)
  · exact .inr ⟨e, by simp [State.trace, hlog]⟩

/-! ### Which rectangles fit the result fields (R7, R150, R155) -/

/-- `2047 = 8 * 255 + 7` is the last column of the last byte (R155). -/
theorem windowFits_iff (r : Rectangle) :
    windowFits r = true ↔ r.x.toNat + r.width.toNat - 1 ≤ 2047 ∧ r.y.toNat + r.height.toNat ≤ 65535 := by
  rw [windowFits_eq, decide_eq_true_iff, windowXEnd_eq_div, windowYEnd]
  omega

theorem counterFits_iff (x : Coord) : counterFits x = true ↔ x.toNat ≤ 2047 := by
  rw [counterFits_eq, decide_eq_true_iff, counterX_eq_div]
  omega

/-- Settles O54: the largest panel, 2048 by 65535, bounds the two sums by the limits of R155. -/
theorem panelRectanglesFit : Obligations.PanelRectanglesFit := by
  refine ⟨windowFits_iff, counterFits_iff, fun panelW panelH r hpanel hr => ?_⟩
  obtain ⟨-, hw, -, hh⟩ := hpanel
  obtain ⟨hx, hy⟩ := hr
  simp only [Config.panelWidthMax, Config.panelHeightMax] at hw hh
  rw [windowFits_iff, counterFits_iff]
  omega

end Machine
end Sys2Proof
end

section
/-! Proofs of the family 10_state: the invariant (O10, O11, O12), what waits and what never changes (O14, O15, O16), what no
step reads (O21, O22), the values of block reset (O7), the operation a step runs (O9) and the micro-steps of `sendCommand`
(O24). -/

namespace Sys2Proof

/-- A row's must-be-zero bits are exactly those its operand fields do not name, so the fields give the word back (R83, R85). -/
theorem encode_of_decode {w : RequestWord} {i : Instr} (h : decode w = .instr i) : encode i = w := by
  rw [← packRequest_fields w]
  unfold decode at h
  split_ifs at h <;> cases h <;>
    simp_all [encode, hits_sendCommand, hits_sendData, hits_sendCommandWithData, hits_repeatByte, hits_reset,
      hits_waitUntilIdle, hits_computeWindow, hits_computeCounter, hits_expand, Instr.opcode, Instr.operandA,
      Instr.operandB, fieldByte_eq, fieldFlag_eq, fieldX_eq, fieldY_eq, fieldWidth_eq, fieldHeight_eq,
      byteOperand_of_mask, flagOperand_of_mask]

namespace Machine

section Invariant
variable {i : Instr} {s t : State}

/-! ### The invariant: where it holds without a step -/

/-- The invariant speaks of no input but `WAIT_LIMIT`. -/
theorem Consistent.withInputs (hs : Consistent s) (bus : Draws (Option TxAnswer)) (dly : Draws DelayReply)
    (hrst : List Bool) : Consistent { s with bus := bus, dly := dly, hrst := hrst } := { hs with }

/-- In `IDLE` the invariant speaks of chip-select and `RST` only (R40, R118). -/
theorem consistent_of_idle (hp : s.ph = .idle) (hc : s.csel = false) (hr : s.rst = true) : Consistent s where
  select := by simp [hp, hc, selectedIn]
  level := by simp [hp, frameLevel]
  reset := by simp [hp, hr, resetLevel]
  latched := by simp [hp, phaseOpcode]
  status := by simp [hp, statusWritten, started]
  running := by simp [hp, started]
  result := by simp [hp, mayHoldResult, started]
  index := by simp [hp, indexInRange]
  polls := by simp [hp, pollsInRange]
  samples := by simp [hp]
  cause := by simp [hp, errorHasCause]

theorem consistent_blockReset (s : State) : Consistent (blockReset s) := consistent_of_idle rfl rfl rfl

/-! ### The latches (R26) -/

theorem latchedWord_acceptWord (w : RequestWord) (p : Phase) (s : State) : latchedWord (acceptWord w p s) = w :=
  packRequest_fields w

/-- The latched length operand is the operation's (R27, R82). -/
theorem latched_b_eq (h : decode (latchedWord s) = .instr i) : s.b = i.operandB :=
  calc s.b = fieldB (latchedWord s) := (fieldB_packRequest ..).symm
    _ = fieldB (encode i) := by rw [encode_of_decode h]
    _ = i.operandB := fieldB_encode i

theorem phaseOpcode_firstPhase (i : Instr) : phaseOpcode (firstPhase i) = some i.opcode := by cases i <;> rfl

/-- Only an acceptance latches; every other move stays in the phases of the operation that runs, or leaves it. -/
theorem Moves.accepts_or_keeps_latches (h : Moves i s t) :
    t = acceptWord (encode i) (firstPhase i) s ∨
      latchedWord t = latchedWord s ∧ (phaseOpcode t.ph = phaseOpcode s.ph ∨ phaseOpcode t.ph = none) := by
  cases h with
  | accept => exact .inl rfl
  | noMove => exact .inr ⟨rfl, .inl rfl⟩
  | abort _ _ _ ha => cases ha <;> exact .inr ⟨rfl, .inr rfl⟩
  | sendCommandS3 _ _ _ hp htx | sendDataS3Tx _ _ _ _ hp htx | withDataS3 _ _ _ _ hp htx
  | withDataS5Tx _ _ _ _ _ hp htx | repeatByteS3 _ _ _ _ hp _ htx =>
    cases htx <;> exact .inr ⟨rfl, by simp [hp, phaseOpcode]⟩
  | _ => exact .inr ⟨rfl, by simp_all [phaseOpcode]⟩

/-! ### Lines, `ST` and `RES`: what the phase alone fixes (R22, R29, R110, R115, R118) -/

/-- The part of the invariant that speaks of the phase, the lines, `ST` and `RES`. -/
structure FixedByPhase (s : State) : Prop where
  select : s.csel = selectedIn s.ph s.st
  level : ∀ l, frameLevel s.ph = some l → s.dc = l
  reset : s.rst = resetLevel s.ph
  status : statusWritten s.ph = true → s.st.toNat ≤ 4
  running : started s.ph = true → s.st = statusCode .ok
  result : mayHoldResult s.ph = false → s.res = 0

theorem Consistent.fixedByPhase (hs : Consistent s) : FixedByPhase s := { hs with }

theorem statusCode_toNat_le (e : Status) : (statusCode e).toNat ≤ 4 := by cases e <;> decide

theorem statusCode_eq_busError_iff (e : Status) : statusCode e = statusCode .busError ↔ e = .busError := by
  cases e <;> decide

theorem AbortMoves.fixedByPhase (h : AbortMoves s t) (hs : FixedByPhase s) : FixedByPhase t := by
  obtain ⟨hselect, -, hreset, hstatus, -, hresult⟩ := hs
  cases h <;> constructor <;>
    simp_all [selectedIn, frameLevel, resetLevel, statusWritten, started, mayHoldResult, statusCode_toNat_le,
      statusCode_eq_busError_iff]

/-- An acceptance leaves the lines as they stand in `IDLE`; `ST` and `RES` are unspecified until the first micro-step. -/
theorem FixedByPhase.accept (hs : FixedByPhase s) (hp : s.ph = .idle) :
    FixedByPhase (acceptWord (encode i) (firstPhase i) s) := by
  obtain ⟨hselect, -, hreset, -, -, -⟩ := hs
  cases i <;> constructor <;>
    simp_all [firstPhase, selectedIn, frameLevel, resetLevel, statusWritten, started, mayHoldResult]

theorem FixedByPhase.acceptReserved (hs : FixedByPhase s) (hp : s.ph = .idle) (w : RequestWord) :
    FixedByPhase (acceptWord w (.abortA1 .illegalRequest) s) := by
  obtain ⟨hselect, -, hreset, -, -, -⟩ := hs
  constructor <;> simp_all [selectedIn, frameLevel, resetLevel, statusWritten, started, mayHoldResult]

/-- Each move writes the lines, `ST` and `RES` as its new phase asks. -/
theorem Moves.fixedByPhase (h : Moves i s t) (hs : FixedByPhase s) : FixedByPhase t := by
  cases h with
  | noMove => exact hs
  | accept _ _ hp => exact hs.accept hp
  | abort _ _ _ ha => exact ha.fixedByPhase hs
  | sendCommandS3 _ _ _ _ htx | sendDataS3Tx _ _ _ _ _ htx | withDataS3 _ _ _ _ _ htx | withDataS5Tx _ _ _ _ _ _ htx
  | repeatByteS3 _ _ _ _ _ _ htx =>
    obtain ⟨hselect, hlevel, hreset, hstatus, hrunning, hresult⟩ := hs
    cases htx <;> constructor <;>
      simp +contextual [*, selectedIn, frameLevel, resetLevel, statusWritten, started, mayHoldResult,
        statusCode_toNat_le]
  | _ =>
    obtain ⟨hselect, hlevel, hreset, hstatus, hrunning, hresult⟩ := hs
    constructor <;>
      simp +contextual [*, selectedIn, frameLevel, resetLevel, statusWritten, started, mayHoldResult,
        statusCode_toNat_le]

/-! ### `IDX` (R27) -/

theorem add_one_le_of_lt {v w : Word32} (h : v < w) : v + 1 ≤ w := by bv_omega

theorem zero_le_word (v : Word32) : 0 ≤ v := by bv_omega

/-- `IDX` starts at 0, moves on by one only while it is not the length, and stays once it is the length. -/
theorem Moves.keeps_index (h : Moves i s t) (hb : s.ph ≠ .idle → s.b = i.operandB)
    (hs : indexInRange s.ph s.idx s.b) : indexInRange t.ph t.idx t.b := by
  cases h with
  | noMove => exact hs
  | accept => cases i <;> trivial
  | abort _ _ _ ha => cases ha <;> trivial
  | sendCommandS3 _ _ _ _ htx | withDataS3 _ _ _ _ _ htx => cases htx <;> simp_all [indexInRange]
  | sendDataS3Tx _ _ _ _ hp htx | withDataS5Tx _ _ _ _ _ hp htx =>
    cases htx with
    | waits => exact hs
    | ok =>
      rw [hp] at hs
      exact add_one_le_of_lt hs
    | fail => trivial
  | repeatByteS3 _ _ _ _ hp hi htx =>
    cases htx with
    | waits => exact hs
    | ok =>
      rw [hp] at hs
      exact add_one_le_of_lt (BitVec.lt_of_le_ne hs (hb (by simp [hp]) ▸ hi))
    | fail => trivial
  | sendDataS3 _ _ _ hp hi | withDataS5 _ _ _ _ hp hi =>
    rw [hp] at hs
    exact BitVec.lt_of_le_ne hs (hb (by simp [hp]) ▸ hi)
  | sendDataS2 | repeatByteS2 => exact zero_le_word _
  | withDataS4 _ _ _ hp =>
    rw [hp] at hs
    exact hs ▸ zero_le_word s.b
  | _ => simp_all [indexInRange, Instr.operandB]

/-! ### `NPOLL` and the samples (R28, R116) -/

theorem toNat_pollCount_le (n : Word32) : (pollCount n).toNat ≤ n.toNat + 1 := by
  unfold pollCount
  split <;> bv_omega

theorem pollCount_lt {limit n : Word32} (h : n < limit) (hne : pollCount n ≠ limit) : pollCount n < limit := by
  have hle := toNat_pollCount_le n
  bv_omega

theorem eq_not_of_busyState {p : Bool} {l : Level} (h : busyState p l = true) : l = !p := by
  revert h
  cases p <;> cases l <;> decide

/-- A busy sample makes the newest `NPOLL` events one more busy sample, or as many where `NPOLL` is saturated. -/
theorem replicate_pollCount_isPrefix {α : Type} {n : Word32} {e : α} {log : List α}
    (h : List.replicate n.toNat e <+: log) : List.replicate (pollCount n).toNat e <+: e :: log :=
  calc List.replicate (pollCount n).toNat e
      <+: List.replicate (n.toNat + 1) e := by
        obtain ⟨k, hk⟩ := Nat.exists_eq_add_of_le (toNat_pollCount_le n)
        exact ⟨List.replicate k e, by rw [hk, List.replicate_add]⟩
    _ <+: e :: log := by simpa [List.replicate_succ] using h

theorem Moves.keeps_polls (h : Moves i s t) (hs : pollsInRange s.ph s.waitLimit s.npoll) :
    pollsInRange t.ph t.waitLimit t.npoll := by
  cases h with
  | noMove => exact hs
  | accept => cases i <;> trivial
  | abort _ _ _ ha => cases ha <;> trivial
  | sendCommandS3 _ _ _ _ htx | sendDataS3Tx _ _ _ _ _ htx | withDataS3 _ _ _ _ _ htx | withDataS5Tx _ _ _ _ _ _ htx
  | repeatByteS3 _ _ _ _ _ _ htx =>
    cases htx with
    | waits => exact hs
    | ok | fail => trivial
  | resetS2Waits | resetS4Waits => exact hs
  | waitS1 => exact fun hlimit => BitVec.lt_of_le_ne (zero_le_word _) hlimit.symm
  | waitS2Busy _ _ hp _ hl =>
    simp only [limitReached, decide_eq_false_iff_not, not_and] at hl
    simp only [setPolls_ph, sampleBusy_ph, hp, pollsInRange] at hs ⊢
    exact fun hlimit => pollCount_lt (hs hlimit) (hl hlimit)
  | _ => trivial

/-- After one more busy sample the newest events are as many busy samples as `NPOLL` then counts. -/
theorem Consistent.samples_pollCount (hs : Consistent s) {p : Bool} (hp : s.ph = .waitUntilIdleS2)
    (hd : decode (latchedWord s) = .instr (.waitUntilIdle p)) (hb : busyState p s.busy.head = true) :
    List.replicate (pollCount s.npoll).toNat (Event.smp (!p)) <+: .smp s.busy.head :: s.log := by
  rw [eq_not_of_busyState hb]
  exact replicate_pollCount_isPrefix (hs.samples p hp hd)

theorem Moves.keeps_samples (h : Moves i s t) (hi : s.ph ≠ .idle → decode (latchedWord s) = .instr i)
    (hs : Consistent s) :
    ∀ p, t.ph = .waitUntilIdleS2 → decode (latchedWord t) = .instr (.waitUntilIdle p) →
      List.replicate t.npoll.toNat (.smp (!p)) <+: t.log := by
  intro p hp hd
  cases h with
  | noMove => exact hs.samples p hp hd
  | accept => cases i <;> cases hp
  | abort _ _ _ ha => cases ha <;> cases hp
  | sendCommandS3 _ _ _ _ htx | sendDataS3Tx _ _ _ _ _ htx | withDataS3 _ _ _ _ _ htx | withDataS5Tx _ _ _ _ _ _ htx
  | repeatByteS3 _ _ _ _ _ _ htx =>
    cases htx <;> simp_all
  | waitS1 => simp
  | waitS2Busy q _ hq hb =>
    have : Decoded.instr (.waitUntilIdle q) = .instr (.waitUntilIdle p) := (hi (by simp [hq])).symm.trans hd
    cases this
    exact hs.samples_pollCount hp hd hb
  | _ => simp_all

/-! ### The causes of the errors (R88, R181 to R184, R187) -/

/-- Chip-select is asserted at A2 exactly for `BusError`, so what A2 emits is `abortEvents` of the error. -/
theorem AbortMoves.keeps_cause (h : AbortMoves s t) (hs : Consistent s) :
    errorHasCause t.ph t.st (decode (latchedWord t)) t.waitLimit t.log := by
  have hcause := hs.cause
  have hselect := hs.select
  cases h with
  | a1 e hp =>
    rw [hp] at hcause
    exact ⟨e, rfl, hcause⟩
  | a2Release hp hc =>
    rw [hp] at hcause hselect
    obtain ⟨e, hst, he⟩ := hcause
    have : e = .busError := by simpa [hc, selectedIn, hst, statusCode_eq_busError_iff] using hselect
    exact ⟨e, s.log, hst, by simp [abortEvents, this], he⟩
  | a2Released hp hc =>
    rw [hp] at hcause hselect
    obtain ⟨e, hst, he⟩ := hcause
    have : e ≠ .busError := by simpa [hc, selectedIn, hst, statusCode_eq_busError_iff] using hselect
    exact ⟨e, s.log, hst, by simp [abortEvents, this], he⟩
  | a3 => trivial

/-- A transfer that answers `fail` is the cause of the `BusError` it raises. -/
theorem TxMoves.keeps_cause {byte : Byte} {onOk : State → State} (h : TxMoves byte onOk s t)
    (hi : decode (latchedWord s) = .instr i) (hf : isFraming i = true)
    (hs : errorHasCause s.ph s.st (decode (latchedWord s)) s.waitLimit s.log)
    (hok : ∀ u st request limit events, errorHasCause (onOk u).ph st request limit events) :
    errorHasCause t.ph t.st (decode (latchedWord t)) t.waitLimit t.log := by
  cases h with
  | waits => exact hs
  | ok => exact hok ..
  | fail => exact ⟨i, byte, s.log, hi, hf, rfl⟩

/-- Each raise names its cause: the failed transfer, the last busy sample, the zero dimension. -/
theorem Moves.keeps_cause (h : Moves i s t) (hi : s.ph ≠ .idle → decode (latchedWord s) = .instr i)
    (hs : Consistent s) : errorHasCause t.ph t.st (decode (latchedWord t)) t.waitLimit t.log := by
  cases h with
  | noMove | resetS2Waits | resetS4Waits => exact hs.cause
  | accept => cases i <;> trivial
  | abort _ _ _ ha => exact ha.keeps_cause hs
  | sendCommandS3 _ _ _ hp htx | sendDataS3Tx _ _ _ _ hp htx | withDataS3 _ _ _ _ hp htx
  | withDataS5Tx _ _ _ _ _ hp htx | repeatByteS3 _ _ _ _ hp _ htx =>
    exact htx.keeps_cause (hi (by simp [hp])) rfl hs.cause fun _ _ _ _ _ => trivial
  | waitS2Busy _ _ hp => simp [hp, errorHasCause]
  | waitS2Timeout q _ hp hb hl =>
    have hd := hi (by simp [hp])
    obtain ⟨hlimit, heq⟩ := of_decide_eq_true hl
    exact ⟨q, hd, hlimit, heq ▸ hs.samples_pollCount hp hd hb⟩
  | windowS1Invalid r _ hp hd => exact ⟨r, hi (by simp [hp]), hd⟩
  | _ => trivial

/-! ### The step keeps the whole invariant -/

theorem AbortMoves.consistent (h : AbortMoves s t) (hs : Consistent s) : Consistent t :=
  { h.fixedByPhase hs.fixedByPhase with
    latched := by cases h <;> simp [phaseOpcode]
    index := by cases h <;> trivial
    polls := by cases h <;> trivial
    samples := by cases h <;> simp
    cause := h.keeps_cause hs }

theorem Moves.keeps_latched (h : Moves i s t) (hs : Consistent s) :
    ∀ code, phaseOpcode t.ph = some code → ∃ j, decode (latchedWord t) = .instr j ∧ j.opcode = code := by
  intro code hcode
  rcases h.accepts_or_keeps_latches with rfl | ⟨hword, hph | hph⟩
  · rw [acceptWord_ph, phaseOpcode_firstPhase] at hcode
    exact ⟨i, by rw [latchedWord_acceptWord, decode_encode], Option.some.inj hcode⟩
  · rw [hword]
    exact hs.latched code (hph ▸ hcode)
  · simp [hph] at hcode

theorem Moves.consistent (h : Moves i s t) (hi : s.ph ≠ .idle → decode (latchedWord s) = .instr i)
    (hs : Consistent s) : Consistent t :=
  { h.fixedByPhase hs.fixedByPhase with
    latched := h.keeps_latched hs
    index := h.keeps_index (fun hp => latched_b_eq (hi hp)) hs.index
    polls := h.keeps_polls hs.polls
    samples := h.keeps_samples hi hs
    cause := h.keeps_cause hi hs }

theorem Consistent.acceptReserved (hs : Consistent s) (hp : s.ph = .idle) {w : RequestWord} {why : ReservedWhy}
    (hd : decode w = .reserved why) : Consistent (acceptWord w (.abortA1 .illegalRequest) s) :=
  { hs.fixedByPhase.acceptReserved hp w with
    latched := by simp [phaseOpcode]
    index := trivial
    polls := trivial
    samples := by simp
    cause := ⟨why, by rw [latchedWord_acceptWord, hd]⟩ }

theorem StepMoves.consistent (h : StepMoves s t) (hs : Consistent s) : Consistent t := by
  cases h with
  | waits => exact hs
  | accepts _ _ _ _ hp _ _ hmove => exact hmove.consistent (absurd hp) hs
  | acceptsReserved _ _ _ hp _ hd => exact hs.acceptReserved hp hd
  | operation _ _ hd _ hmove => exact hmove.consistent (fun _ => hd) hs
  | aborts _ ha => exact ha.consistent hs

/-- Every branch of every operation answers a next state or a refusal. -/
theorem exec_ne_fault (i : Instr) (s : State) (f : Fault) : exec i s ≠ .fault f := by
  intro h
  cases i <;>
    simp only [exec, execSendCommand, execSendData, execSendCommandWithData, execRepeatByte, execReset,
      execWaitUntilIdle, execComputeWindow, windowStep, execComputeCounter, execExpand] at h <;>
    (repeat' split at h) <;> cases h

theorem sequencerStep_ne_fault (hs : Consistent s) (f : Fault) : sequencerStep s ≠ .fault f := by
  rcases sequencerStep_cases s with ⟨-, -, he⟩ | ⟨_, _, i, -, -, -, he⟩ | ⟨_, _, _, -, -, -, he⟩ | ⟨i, -, -, he⟩ |
    ⟨-, -, he⟩ | ⟨code, hcode, hother, -⟩
  · simp [he]
  · rw [he]
    exact exec_ne_fault i s f
  · simp [he]
  · rw [he]
    exact exec_ne_fault i s f
  · simp [he]
  · obtain ⟨i, hd, hc⟩ := hs.latched code hcode
    exact absurd hc (hother i hd)

end Invariant

/-- Settles O10: block reset is `IDLE` with the lines released. -/
theorem invariantAtReset : Obligations.InvariantAtReset := consistent_of_idle rfl rfl rfl

/-- Settles O11: block reset meets the invariant anew, and each move of a step keeps it, part by part. -/
theorem stepKeepsInvariant : Obligations.StepKeepsInvariant := by
  intro s t hs h
  rcases stepMoves_of_step s t h with ⟨levels, -, rfl⟩ | ⟨-, hmove⟩
  · exact consistent_blockReset _
  · exact hmove.consistent (hs.withInputs s.bus s.dly s.hrst.tail)

/-- Settles O12: the latches hold the operation of the phase, so the sequencer finds it, and no operation faults. -/
theorem invariantRulesOutFault : Obligations.InvariantRulesOutFault := by
  intro s f hs
  by_cases hr : s.hrst.head? = some true
  · obtain ⟨levels, hr⟩ := List.head?_eq_some_iff.mp hr
    simp [step_of_reset s levels hr]
  · rw [step_of_running s hr]
    exact sequencerStep_ne_fault (hs.withInputs s.bus s.dly s.hrst.tail) f

/-! ### What waits and what never changes (R30, R36) -/

/-- From `s` to `t` the requests on the port stand, and the new event, if there is one, is no `Req` (R30). -/
def TakesNoRequest (s t : State) : Prop :=
  t.req = s.req ∧ (t.log = s.log ∨ ∃ e, (∀ w, e ≠ .req w) ∧ t.log = e :: s.log)

section WaitsAndConstants
variable {i : Instr} {s t : State}

theorem AbortMoves.takesNoRequest (h : AbortMoves s t) : TakesNoRequest s t := by
  cases h with
  | a1 | a2Released => exact ⟨rfl, .inl rfl⟩
  | a2Release | a3 => exact ⟨rfl, .inr ⟨_, by simp, rfl⟩⟩

theorem TxMoves.takesNoRequest {byte : Byte} {onOk : State → State} (h : TxMoves byte onOk s t)
    (hreq : ∀ u, (onOk u).req = u.req) (hlog : ∀ u, (onOk u).log = u.log) : TakesNoRequest s t := by
  cases h with
  | waits => exact ⟨rfl, .inl rfl⟩
  | ok => exact ⟨hreq _, .inr ⟨_, by simp, hlog _⟩⟩
  | fail => exact ⟨rfl, .inr ⟨_, by simp, rfl⟩⟩

theorem Moves.takesNoRequest (h : Moves i s t) (hi : s.ph ≠ .idle) : TakesNoRequest s t := by
  cases h with
  | accept _ _ hp => contradiction
  | abort _ _ _ ha => exact ha.takesNoRequest
  | sendCommandS3 _ _ _ _ htx | sendDataS3Tx _ _ _ _ _ htx | withDataS3 _ _ _ _ _ htx | withDataS5Tx _ _ _ _ _ _ htx
  | repeatByteS3 _ _ _ _ _ _ htx =>
    exact htx.takesNoRequest (fun _ => rfl) fun _ => rfl
  | noMove | sendDataS3Done | withDataS5Done | repeatByteS3Done | resetS2Waits | resetS4Waits | waitS1 | windowS1Invalid
  | windowS1 | counterS1 | expandS1 => exact ⟨rfl, .inl rfl⟩
  | _ => exact ⟨rfl, .inr ⟨_, by simp, rfl⟩⟩

theorem StepMoves.takesNoRequest (h : StepMoves s t) (hi : s.ph ≠ .idle) : TakesNoRequest s t := by
  cases h with
  | waits hp | accepts _ _ _ _ hp | acceptsReserved _ _ _ hp => contradiction
  | operation _ _ _ _ hmove => exact hmove.takesNoRequest hi
  | aborts _ ha => exact ha.takesNoRequest

theorem TakesNoRequest.trace_ne (h : TakesNoRequest s t) (w : RequestWord) : t.trace ≠ s.trace ++ [.req w] := by
  obtain ⟨-, hlog | ⟨e, he, hlog⟩⟩ := h
  · simp [State.trace, hlog]
  · simpa [State.trace, hlog] using he w

theorem AbortMoves.waitLimit_eq (h : AbortMoves s t) : t.waitLimit = s.waitLimit := by cases h <;> rfl

theorem Moves.waitLimit_eq (h : Moves i s t) : t.waitLimit = s.waitLimit := by
  cases h with
  | abort _ _ _ ha => exact ha.waitLimit_eq
  | sendCommandS3 _ _ _ _ htx | sendDataS3Tx _ _ _ _ _ htx | withDataS3 _ _ _ _ _ htx | withDataS5Tx _ _ _ _ _ _ htx
  | repeatByteS3 _ _ _ _ _ _ htx => cases htx <;> rfl
  | _ => rfl

theorem StepMoves.waitLimit_eq (h : StepMoves s t) : t.waitLimit = s.waitLimit := by
  cases h with
  | waits | acceptsReserved => rfl
  | accepts _ _ _ _ _ _ _ hmove | operation _ _ _ _ hmove => exact hmove.waitLimit_eq
  | aborts _ ha => exact ha.waitLimit_eq

theorem step_waitLimit_eq (h : step s = .next t) : t.waitLimit = s.waitLimit := by
  rcases stepMoves_of_step s t h with ⟨levels, -, rfl⟩ | ⟨-, hmove⟩
  · rfl
  · exact hmove.waitLimit_eq (s := { s with hrst := s.hrst.tail })

end WaitsAndConstants

/-- Settles O14, by cases over the moves a step can make outside `IDLE`. -/
theorem requestWaitsWhileBusy : Obligations.RequestWaitsWhileBusy := by
  intro s t hi h
  have hnone : TakesNoRequest s t := by
    rcases stepMoves_of_step s t h with ⟨levels, -, rfl⟩ | ⟨-, hmove⟩
    · exact ⟨rfl, .inl rfl⟩
    · exact hmove.takesNoRequest hi
  have ⟨hreq, _⟩ := hnone
  exact ⟨hreq, hnone.trace_ne⟩

/-- Settles O16, by induction on the number of steps. -/
theorem waitLimitNeverWritten : Obligations.WaitLimitNeverWritten := by
  intro k
  induction k with
  | zero =>
    rintro s t ⟨⟩
    rfl
  | succ k ih =>
    intro s t h
    rw [run_succ] at h
    split at h
    next u hu => rw [ih u t h, step_waitLimit_eq hu]
    all_goals cases h

theorem abortOrWait_of_operationPhase {s : State} {code : Byte} (h : phaseOpcode s.ph = some code) :
    abortOrWait s = s := by
  rcases abortOrWait_cases s with ⟨_, hp, -⟩ | ⟨hp, -⟩ | ⟨hp, -⟩ | ⟨hp, -⟩ | ⟨-, -, -, he⟩
  case inr.inr.inr.inr => exact he
  all_goals simp [hp, phaseOpcode] at h

/-- In a phase that is none of its own labels, an operation runs the abort sequence or waits (R30, U8). -/
theorem exec_of_foreignPhase (i : Instr) (s : State) (hi : s.ph ≠ .idle) (hp : phaseOpcode s.ph ≠ some i.opcode) :
    exec i s = .next (abortOrWait s) := by
  cases i <;>
    simp only [exec, execSendCommand, execSendData, execSendCommandWithData, execRepeatByte, execReset,
      execWaitUntilIdle, execComputeWindow, execComputeCounter, execExpand] <;>
    split <;> simp_all [phaseOpcode, Instr.opcode]

/-- Settles O15: the phase is no abort phase either, so the operation waits. -/
theorem otherRequestMakesNoMove : Obligations.OtherRequestMakesNoMove := by
  intro i s code hcode hne
  have hi : s.ph ≠ .idle := by
    intro hp
    simp [hp, phaseOpcode] at hcode
  rw [exec_of_foreignPhase i s hi (by simpa [hcode] using hne.symm), abortOrWait_of_operationPhase hcode]

/-! ### What no step reads (R20, R22, R23, R40) -/

/-- The phases in which `IDX` has been written and is still read (R27). -/
@[simp] def indexLive : Phase → Bool
  | .sendDataS3 | .sendDataS3Tx _ | .repeatByteS3 => true
  | .sendCommandWithDataS3 | .sendCommandWithDataS4 | .sendCommandWithDataS5 | .sendCommandWithDataS5Tx _ => true
  | _ => false

/-- The phases in which `NPOLL` has been written and is still read (R28). -/
@[simp] def pollsLive : Phase → Bool
  | .waitUntilIdleS2 => true
  | _ => false

/-- Two states agree on everything a later step can show: the levels of `DC` and `RST` may differ, and, unless `full`, every
latch in the phases where the operation in progress has not written it. -/
structure SameView (full : Prop) (s t : State) : Prop where
  ph : t.ph = s.ph
  csel : t.csel = s.csel
  waitLimit : t.waitLimit = s.waitLimit
  req : t.req = s.req
  bus : t.bus = s.bus
  busy : t.busy = s.busy
  dly : t.dly = s.dly
  hrst : t.hrst = s.hrst
  log : t.log = s.log
  request : full ∨ s.ph ≠ .idle → t.opr = s.opr ∧ t.a = s.a ∧ t.b = s.b ∧ t.pay = s.pay
  response : full ∨ statusWritten s.ph = true → t.st = s.st ∧ t.res = s.res
  idx : full ∨ indexLive s.ph = true → t.idx = s.idx
  npoll : full ∨ pollsLive s.ph = true → t.npoll = s.npoll

/-- Two outcomes are both a next state, related by `R`, or the same stop. -/
def RelatedOutcomes (R : State → State → Prop) :
    Host.Outcome State Fault Refusal → Host.Outcome State Fault Refusal → Prop
  | .next s, .next t => R s t
  | .fault f, .fault g => f = g
  | .refused r, .refused q => r = q
  | _, _ => False

section SameView
variable {full : Prop} {s t : State}

theorem SameView.blockReset (h : SameView full s t) : SameView full (blockReset s) (blockReset t) := by
  cases h
  constructor <;> simp_all

theorem SameView.acceptWord (h : SameView full s t) (w : RequestWord) {p : Phase} (hst : statusWritten p = false)
    (hidx : indexLive p = false) (hpolls : pollsLive p = false) :
    SameView full (acceptWord w p s) (acceptWord w p t) := by
  cases h
  constructor <;> simp_all [presentedPayload]

theorem SameView.abortOrWait (h : SameView full s t) : SameView full (abortOrWait s) (abortOrWait t) := by
  have hsame := h
  cases h
  unfold Machine.abortOrWait
  simp only [*]
  split
  · constructor <;> simp_all
  · split <;> constructor <;> simp_all [statusWritten]
  · constructor <;> simp_all [statusWritten, started]
  · exact hsame

theorem SameView.transmit (h : SameView full s t) (byte : Byte) {onOk : State → State} (hi : s.ph ≠ .idle)
    (hok : SameView full (onOk (emit (.tx byte .ok) { s with bus := s.bus.tail }))
      (onOk (emit (.tx byte .ok) { t with bus := t.bus.tail }))) :
    SameView full (transmit byte onOk s) (transmit byte onOk t) := by
  rcases transmit_cases byte onOk s with ⟨hb, he⟩ | ⟨hb, he⟩ | ⟨hb, he⟩ <;> rw [he] <;> rw [← h.bus] at hb
  · rw [transmit_pending _ _ _ hb]
    exact { h with bus := congrArg Draws.tail h.bus }
  · rwa [transmit_ok _ _ _ hb]
  · rw [transmit_fail _ _ _ hb]
    cases h
    constructor <;> simp_all [statusWritten, started]

theorem delay_pending (ms : Word32) (p : Phase) (s : State) (h : s.dly.head = .pending) :
    delay ms p s = { s with dly := s.dly.tail } := by simp [delay, h]

theorem SameView.delay (h : SameView full s t) (ms : Word32) {p : Phase} (hi : s.ph ≠ .idle)
    (hst : statusWritten s.ph = true) (hidx : indexLive p = false) (hpolls : pollsLive p = false) :
    SameView full (delay ms p s) (delay ms p t) := by
  rcases delay_cases ms p s with ⟨hd, he⟩ | ⟨hd, he⟩ <;> rw [he] <;> rw [← h.dly] at hd
  · rw [delay_pending _ _ _ hd]
    exact { h with dly := congrArg Draws.tail h.dly }
  · rw [delay_completed _ _ _ hd]
    cases h
    constructor <;> simp_all

theorem SameView.payRead_eq (h : SameView full s t) (hi : s.ph ≠ .idle) (hidx : indexLive s.ph = true) :
    payRead t.idx t = payRead s.idx s := by
  obtain ⟨-, -, -, hpay⟩ := h.request (.inr hi)
  rw [payRead, hpay, h.idx (.inr hidx), payRead]

/-- No operation reads a level of `DC` or `RST`, or a latch it has not written: after the reads are seen to agree, each
remaining branch makes the same writes on both sides. -/
theorem SameView.exec (h : SameView full s t) (i : Instr) :
    RelatedOutcomes (SameView full) (exec i s) (exec i t) := by
  cases i
  case' sendCommand code =>
    simp only [Machine.exec, execSendCommand, h.ph]
    split
    case h_1 => exact h.acceptWord _ rfl rfl rfl
    case h_7 => exact h.abortOrWait
    case' h_4 hp => refine h.transmit _ (by simp [hp]) ?_
  case' sendData len =>
    simp only [Machine.exec, execSendData, h.ph]
    split
    case h_1 => exact h.acceptWord _ rfl rfl rfl
    case h_8 => exact h.abortOrWait
    case' h_5 _ hp => refine h.transmit _ (by simp [hp]) ?_
    case' h_4 hp =>
      rw [h.payRead_eq (by simp [hp]) (by simp [hp]), h.idx (.inr (by simp [hp]))]
      split
      case' isFalse =>
        split
        case h_2 => rfl
  case' sendCommandWithData code len =>
    simp only [Machine.exec, execSendCommandWithData, h.ph]
    split
    case h_1 => exact h.acceptWord _ rfl rfl rfl
    case h_10 => exact h.abortOrWait
    case' h_4 hp | h_7 _ hp => refine h.transmit _ (by simp [hp]) ?_
    case' h_6 hp =>
      rw [h.payRead_eq (by simp [hp]) (by simp [hp]), h.idx (.inr (by simp [hp]))]
      split
      case' isFalse =>
        split
        case h_2 => rfl
  case' repeatByte value count =>
    simp only [Machine.exec, execRepeatByte, h.ph]
    split
    case h_1 => exact h.acceptWord _ rfl rfl rfl
    case h_7 => exact h.abortOrWait
    case' h_4 hp =>
      rw [h.idx (.inr (by simp [hp]))]
      split
      case' isFalse => refine h.transmit _ (by simp [hp]) ?_
  case' reset low after =>
    simp only [Machine.exec, execReset, h.ph]
    split
    case h_1 => exact h.acceptWord _ rfl rfl rfl
    case h_7 => exact h.abortOrWait
    case h_3 hp | h_5 hp => exact h.delay _ (by simp [hp]) (by simp [hp, statusWritten, started]) rfl rfl
  case' waitUntilIdle p =>
    simp only [Machine.exec, execWaitUntilIdle, h.ph]
    split
    case h_1 => exact h.acceptWord _ rfl rfl rfl
    case h_5 => exact h.abortOrWait
    case' h_3 hp =>
      simp only [pollOnce, setPolls_waitLimit, setPolls_npoll, sampleBusy_waitLimit, sampleBusy_npoll, h.busy, h.waitLimit,
        h.npoll (.inr (by simp [hp]))]
      split
      case' isTrue => split
  case' computeWindow rect =>
    simp only [Machine.exec, execComputeWindow, windowStep, h.ph]
    split
    case h_1 => exact h.acceptWord _ rfl rfl rfl
    case h_4 => exact h.abortOrWait
    case' h_2 =>
      split
      case' isFalse =>
        split
        case isFalse => rfl
  case' computeCounter x y =>
    simp only [Machine.exec, execComputeCounter, h.ph]
    split
    case h_1 => exact h.acceptWord _ rfl rfl rfl
    case h_4 => exact h.abortOrWait
    case' h_2 =>
      split
      case isFalse => rfl
  case' expand byte =>
    simp only [Machine.exec, execExpand, h.ph]
    split
    case h_1 => exact h.acceptWord _ rfl rfl rfl
    case h_4 => exact h.abortOrWait
  all_goals
    cases h
    constructor <;> simp +contextual [*, statusWritten, started]

theorem SameView.latchedWord_eq (h : SameView full s t) (hi : s.ph ≠ .idle) : latchedWord t = latchedWord s := by
  obtain ⟨hopr, ha, hb, -⟩ := h.request (.inr hi)
  rw [latchedWord, hopr, ha, hb, latchedWord]

theorem SameView.acceptStep (h : SameView full s t) :
    RelatedOutcomes (SameView full) (acceptStep s) (acceptStep t) := by
  unfold Machine.acceptStep
  rw [h.req]
  split
  · exact h
  · split
    · exact h.exec _
    · exact h.acceptWord _ rfl rfl rfl

theorem SameView.operationStep (h : SameView full s t) (hi : s.ph ≠ .idle) (code : Byte) :
    RelatedOutcomes (SameView full) (operationStep code s) (operationStep code t) := by
  unfold Machine.operationStep
  rw [h.latchedWord_eq hi]
  split
  · split
    · exact h.exec _
    · rfl
  · rfl

theorem SameView.sequencerStep (h : SameView full s t) :
    RelatedOutcomes (SameView full) (sequencerStep s) (sequencerStep t) := by
  unfold Machine.sequencerStep
  rw [h.ph]
  split
  next hcode => exact h.operationStep (fun hp => by simp [hp, phaseOpcode] at hcode) _
  next =>
    split
    · exact h.acceptStep
    · exact h.abortOrWait

theorem SameView.withHrst (h : SameView full s t) (levels : List Bool) :
    SameView full { s with hrst := levels } { t with hrst := levels } := { h with hrst := rfl }

theorem SameView.step (h : SameView full s t) : RelatedOutcomes (SameView full) (step s) (step t) := by
  by_cases hr : s.hrst.head? = some true
  · obtain ⟨levels, hr⟩ := List.head?_eq_some_iff.mp hr
    rw [step_of_reset s levels hr, step_of_reset t levels (h.hrst.trans hr)]
    exact (h.withHrst levels).blockReset
  · rw [step_of_running s hr, step_of_running t (h.hrst ▸ hr), h.hrst]
    exact (h.withHrst s.hrst.tail).sequencerStep

theorem SameView.run (h : SameView full s t) (k : Nat) : RelatedOutcomes (SameView full) (run k s) (run k t) := by
  induction k generalizing s t with
  | zero => exact h
  | succ k ih =>
    have hstep := h.step
    rw [run_succ, run_succ]
    revert hstep
    rcases Machine.step s with u | f | r <;> rcases Machine.step t with v | g | q <;> intro hstep
    case next.next => exact ih hstep
    case fault.fault | refused.refused => exact hstep
    all_goals exact hstep.elim

end SameView

theorem RelatedOutcomes.agreeButLines {o q : Host.Outcome State Fault Refusal}
    (h : RelatedOutcomes (SameView True) o q) : agreeButLines o q := by
  rcases o with s | f | r <;> rcases q with t | g | q
  case next.next =>
    cases h
    simp_all [Machine.agreeButLines, withoutLines]
  all_goals exact h

theorem RelatedOutcomes.sameTrace {full : Prop} {o q : Host.Outcome State Fault Refusal}
    (h : RelatedOutcomes (SameView full) o q) : sameTrace o q := by
  rcases o with s | f | r <;> rcases q with t | g | q
  case next.next => exact congrArg List.reverse h.log.symm
  all_goals exact h

/-- Settles O21: the two states agree on everything but the two levels, and a step keeps that. -/
theorem lineLevelsNeverRead : Obligations.LineLevelsNeverRead := by
  intro s dc rst
  have h : SameView True s { s with dc := dc, rst := rst } := by constructor <;> simp
  exact h.step.agreeButLines

/-- Settles O22: in `IDLE` no latch is live, and a run keeps the agreement on the live ones, the trace among them. -/
theorem deadLatchesUnobservable : Obligations.DeadLatchesUnobservable := by
  rintro k s t ⟨hp, ht⟩
  have h : SameView False s t := by
    rw [ht]
    constructor <;> simp [hp, statusWritten, started]
  exact (h.run k).sameTrace

/-! ### Block reset, the operation a step runs, and `sendCommand` (R25, R26, R30, R40, R85, R111) -/

/-- Settles O7: the values stand in `State.reset`, and pin `cs` is the released level of `CS_ACTIVE_LEVEL` 0. -/
theorem resetStateValues : Obligations.ResetStateValues := ⟨rfl, rfl, rfl, rfl, rfl⟩

theorem decode_of_decodeTableWord {nbits w : Nat} {i : Instr} (h : decodeTableWord nbits w = some i) :
    decode (BitVec.ofNat 72 w) = .instr i := by
  unfold decodeTableWord at h
  split at h <;> cases h
  assumption

/-- Settles O9: the sequencer's three cases without `hrst`, and a presented word at the head of the request stream. -/
theorem stepRunsDecodedRequest : Obligations.StepRunsDecodedRequest := by
  refine ⟨fun s i hr hrun => ?_, fun s hr hp hreq => ?_, fun s nbits w i hd => ?_⟩
  · rw [step_of_running s hr]
    rcases hrun with ⟨r, later, hp, hreq, hd⟩ | ⟨hd, hp⟩
    · exact sequencerStep_accept _ r later i hp hreq hd
    · exact sequencerStep_operation _ i hd hp
  · rw [step_of_running s hr]
    exact sequencerStep_waiting _ hp hreq
  · rw [step_of_no_reset _ rfl]
    exact sequencerStep_accept _ ⟨BitVec.ofNat 72 w, []⟩ s.req i rfl rfl (decode_of_decodeTableWord hd)

/-- Settles O24: each phase's branch, and each answer of the bus in S3. -/
theorem sendCommandMicroSteps : Obligations.SendCommandMicroSteps := by
  intro code s
  refine ⟨fun hp => ?_, fun hp => ?_, fun hp => ?_, fun hp hb => ?_, fun hp hb => ?_, fun hp hb => ?_, fun hp => ?_,
    fun hp => ?_⟩ <;> simp only [exec, execSendCommand, hp]
  · simp [acceptWord, goto, emit, Instr.opcode, Instr.operandA, Instr.operandB]
  · rfl
  · rfl
  · rw [transmit_ok _ _ _ hb]
    rfl
  · rw [transmit_fail _ _ _ hb]
    rfl
  · rw [transmit_pending _ _ _ hb, ← hp]
  · rfl
  · rfl

end Machine
end Sys2Proof
end

section
/-! Proofs of the family 20_memory: whole `sendData` operations (O34, O35), where bytes are transmitted (O18), the frame of the
pure operations (O49), and the layout of the values (O51, O55, O58). -/

namespace Sys2Proof.Machine

/-! ### Running an operation: acceptance, its own phases, the abort sequence (R30, R85, R187) -/

section Running
variable {i : Instr} {s t : State}

theorem exec_idle (i : Instr) (s : State) (hp : s.ph = .idle) :
    exec i s = .next (acceptWord (encode i) (firstPhase i) s) := by
  cases i <;>
    simp [exec, execSendCommand, execSendData, execSendCommandWithData, execRepeatByte, execReset, execWaitUntilIdle,
      execComputeWindow, execComputeCounter, execExpand, firstPhase, hp]

/-- The first step from a presented request accepts it. -/
theorem Presents.step_eq {payload : List Byte} {later : List Request} (h : Presents s i payload later) :
    step s = .next (acceptWord (encode i) (firstPhase i) s) := by
  obtain ⟨hp, hr, hreq⟩ := h
  rw [step_of_no_reset s hr, sequencerStep_accept s _ later i hp hreq (decode_encode i), exec_idle i s hp]

/-- Operation `i` is latched and `hrst` stays deasserted: what a run keeps while the operation lasts. -/
structure Runs (i : Instr) (s : State) : Prop where
  running : s.hrst = []
  latched : latchedWord s = encode i

theorem Runs.step_eq (h : Runs i s) (hp : phaseOpcode s.ph = some i.opcode) : step s = exec i s := by
  rw [step_of_no_reset s h.running, sequencerStep_operation s i (by rw [h.latched, decode_encode]) hp]

/-- One more step of operation `i`, by the meaning of `i` in the phase reached. -/
theorem Runs.run_succ_eq (h : Runs i s) (hp : phaseOpcode s.ph = some i.opcode) (he : exec i s = .next t) (k : Nat) :
    run (k + 1) s = run k t := run_step k s t (by rw [h.step_eq hp, he])

theorem step_of_abortPhase (hr : s.hrst = []) (hp : phaseOpcode s.ph = none) (hi : s.ph ≠ .idle) :
    step s = .next (abortOrWait s) := by
  rw [step_of_no_reset s hr, sequencerStep_abort s hp hi]

theorem step_abortA1 {e : Status} (hr : s.hrst = []) (hp : s.ph = .abortA1 e) :
    step s = .next (goto .abortA2 { s with st := statusCode e, res := 0 }) := by
  simp [step_of_abortPhase hr, hp, phaseOpcode, abortOrWait]

theorem step_abortA2 (hr : s.hrst = []) (hp : s.ph = .abortA2) :
    step s = .next (goto .abortA3 (if s.csel then writeCS false s else s)) := by
  simp [step_of_abortPhase hr, hp, phaseOpcode, abortOrWait]

theorem step_abortA3 (hr : s.hrst = []) (hp : s.ph = .abortA3) : step s = .next (respond s.st 0 s) := by
  simp [step_of_abortPhase hr, hp, phaseOpcode, abortOrWait]

/-- The state when the abort sequence of `e` has responded (R187). -/
def aborted (e : Status) (s : State) : State :=
  { s with
    ph := .idle, csel := false, st := statusCode e, res := 0
    log := .rsp (statusCode e) 0 :: if s.csel then .lineCS false :: s.log else s.log }

/-- A1, A2 and A3 from the phase a raise leads to. -/
theorem run_abort {e : Status} (hr : s.hrst = []) (hp : s.ph = .abortA1 e) : run 3 s = .next (aborted e s) := by
  have hA2 := step_abortA2 (s := goto .abortA2 { s with st := statusCode e, res := 0 }) hr rfl
  rw [run_step 2 s _ (step_abortA1 hr hp), run_step 1 _ _ hA2, run_step 0 _ _ (step_abortA3 ?_ rfl)]
  · cases hc : s.csel <;> simp [aborted, hc, goto, respond, emit, writeCS]
  · cases s.csel <;> exact hr

end Running

/-! ### The byte loop of R112 and R113 -/

theorem dataEvents_append_singleton (i : Nat) (bytes : List Byte) (byte : Byte) :
    dataEvents i (bytes ++ [byte]) =
      dataEvents i bytes ++ [.payRd (BitVec.ofNat 32 (i + bytes.length)) byte, .tx byte .ok] := by
  induction bytes generalizing i with
  | nil => rfl
  | cons b bytes ih => simp [dataEvents, ih, Nat.add_assoc, Nat.add_comm 1]

/-- Operation `i` sends its payload, `len` bytes, from a loop at `loop`: below `len` the byte at `IDX` is read there, and
transmitted in the phase that carries it. -/
structure SendsPayload (i : Instr) (len : Word32) (loop : Phase) (carrying : Byte → Phase) : Prop where
  loop_own : phaseOpcode loop = some i.opcode
  carrying_own : ∀ byte, phaseOpcode (carrying byte) = some i.opcode
  reads : ∀ (s : State) (byte : Byte), s.ph = loop → s.idx ≠ len → payRead s.idx s = some byte →
    exec i s = .next (goto (carrying byte) (emit (.payRd s.idx byte) s))
  transmits : ∀ (s : State) (byte : Byte), s.ph = carrying byte → exec i s = .next (transmit byte (nextByte loop) s)

theorem sendData_sendsPayload (len : Word32) : SendsPayload (.sendData len) len .sendDataS3 .sendDataS3Tx where
  loop_own := rfl
  carrying_own _ := rfl
  reads s byte hp hi hb := by simp [exec, execSendData, hp, hi, hb]
  transmits s byte hp := by simp [exec, execSendData, hp]

/-- A state at the head of the loop with `IDX` 0, after `k` bytes have been read and transmitted. -/
def afterBytes (k : Nat) (s : State) : State :=
  { s with
    idx := BitVec.ofNat 32 k, bus := s.bus.drop k, log := (dataEvents 0 (s.pay.take k)).reverse ++ s.log }

section Loop
variable {i : Instr} {len : Word32} {loop : Phase} {carrying : Byte → Phase} {s : State} {k : Nat} {byte : Byte}

theorem afterBytes_zero (h : s.idx = 0) : afterBytes 0 s = s := by
  cases s
  simp_all [afterBytes, dataEvents]

theorem Runs.afterBytes (h : Runs i s) (k : Nat) : Runs i (afterBytes k s) := ⟨h.running, h.latched⟩

theorem ofNat_ne_of_lt (hk : k < len.toNat) : BitVec.ofNat 32 k ≠ len := by bv_omega

theorem payRead_afterBytes (hk : k < len.toNat) :
    payRead (afterBytes k s).idx (afterBytes k s) = s.pay[k]? := by
  have hmod : (BitVec.ofNat 32 k).toNat = k := by rw [BitVec.toNat_ofNat, Nat.mod_eq_of_lt (by omega)]
  rw [payRead, afterBytes, hmod]

/-- Reading byte `k`, below the length, when `k` bytes have been sent. -/
theorem SendsPayload.run_read (h : SendsPayload i len loop carrying) (hs : Runs i s) (hp : s.ph = loop)
    (hk : k < len.toNat) (hb : s.pay[k]? = some byte) (n : Nat) :
    run (n + 1) (afterBytes k s) =
      run n (goto (carrying byte) (emit (.payRd (BitVec.ofNat 32 k) byte) (afterBytes k s))) :=
  (hs.afterBytes k).run_succ_eq (by simpa [afterBytes, hp] using h.loop_own)
    (h.reads _ byte hp (ofNat_ne_of_lt hk) (by rw [payRead_afterBytes hk, hb])) n

/-- The transfer of byte `k`, just read, whatever the bus answers. -/
theorem SendsPayload.run_transmit (h : SendsPayload i len loop carrying) (hs : Runs i s) (n : Nat) :
    run (n + 1) (goto (carrying byte) (emit (.payRd (BitVec.ofNat 32 k) byte) (afterBytes k s))) =
      run n (transmit byte (nextByte loop)
        (goto (carrying byte) (emit (.payRd (BitVec.ofNat 32 k) byte) (afterBytes k s)))) := by
  have hread : Runs i (goto (carrying byte) (emit (.payRd (BitVec.ofNat 32 k) byte) (afterBytes k s))) :=
    ⟨hs.running, hs.latched⟩
  exact hread.run_succ_eq (h.carrying_own byte) (h.transmits _ byte rfl) n

/-- One iteration whose transfer succeeds sends one byte more. -/
theorem SendsPayload.run_iteration (h : SendsPayload i len loop carrying) (hs : Runs i s) (hp : s.ph = loop)
    (hk : k < len.toNat) (hb : s.pay[k]? = some byte) (hok : (s.bus.drop k).head = some .ok) :
    run 2 (afterBytes k s) = .next (afterBytes (k + 1) s) := by
  rw [h.run_read hs hp hk hb, h.run_transmit hs, transmit_ok _ _ _ hok, run_zero]
  have hlen : (s.pay.take k).length = k := List.length_take_of_le (List.getElem?_eq_some_iff.mp hb).1.le
  simp [afterBytes, nextByte, setIndex, goto, emit, hp, List.take_add_one, hb, dataEvents_append_singleton, hlen,
    BitVec.ofNat_add]

/-- `k` iterations whose transfers succeed, by induction on `k` (R112, R119). -/
theorem SendsPayload.run_iterations (h : SendsPayload i len loop carrying) (hs : Runs i s) (hp : s.ph = loop)
    (hidx : s.idx = 0) (hk : k ≤ len.toNat) (hpay : k ≤ s.pay.length) (hok : allOk s.bus k) :
    run (2 * k) s = .next (afterBytes k s) := by
  induction k with
  | zero => rw [afterBytes_zero hidx, Nat.mul_zero, run_zero]
  | succ k ih =>
    have hb : s.pay[k]? = some s.pay[k] := List.getElem?_eq_getElem hpay
    rw [Nat.mul_succ, run_add _ 2 _ _ (ih (by omega) (by omega) fun j hj => hok j (by omega)),
      h.run_iteration hs hp hk hb (hok k (by omega))]

/-- An iteration whose transfer fails reads byte `k` and aborts with `BusError` (R121, R181, R187). -/
theorem SendsPayload.run_failure (h : SendsPayload i len loop carrying) (hs : Runs i s) (hp : s.ph = loop)
    (hk : k < len.toNat) (hb : s.pay[k]? = some byte) (hfail : (s.bus.drop k).head = some .fail) :
    run 5 (afterBytes k s) = .next (aborted .busError
      { s with
        idx := BitVec.ofNat 32 k, bus := s.bus.drop (k + 1),
        log := .tx byte .fail :: .payRd (BitVec.ofNat 32 k) byte :: (afterBytes k s).log }) := by
  rw [h.run_read hs hp hk hb, h.run_transmit hs, transmit_fail _ _ _ hfail]
  refine (run_abort (e := .busError) ?_ ?_).trans ?_
  · exact hs.running
  · rfl
  · simp [afterBytes, aborted, raise, goto, emit]

end Loop

/-! ### `sendData` as a whole (R112, R119, R121) -/

section SendData
variable {s : State} {len : Word32} {payload : List Byte} {later : List Request}

/-- `sendData` accepted and its select window opened, before the first byte. -/
def sendDataOpened (len : Word32) (payload : List Byte) (later : List Request) (s : State) : State :=
  { s with
    ph := .sendDataS3, csel := true, dc := true, idx := 0, st := statusCode .ok, res := 0,
    opr := fieldOp (encode (.sendData len)), a := fieldA (encode (.sendData len)), b := fieldB (encode (.sendData len)),
    pay := payload, req := later, log := .lineCS true :: .lineDC true :: .req (encode (.sendData len)) :: s.log }

theorem Presents.runs_sendDataOpened (h : Presents s (.sendData len) payload later) :
    Runs (.sendData len) (sendDataOpened len payload later s) := ⟨h.running, packRequest_fields _⟩

/-- The acceptance, S1 and S2. -/
theorem Presents.run_sendData_opens (h : Presents s (.sendData len) payload later) :
    run 3 s = .next (sendDataOpened len payload later s) := by
  have hS1 : Runs (.sendData len) (acceptWord (encode (.sendData len)) .sendDataS1 s) :=
    ⟨h.running, latchedWord_acceptWord ..⟩
  have hS2 : Runs (.sendData len)
      (goto .sendDataS2 (writeDC true (startOperation (acceptWord (encode (.sendData len)) .sendDataS1 s)))) :=
    ⟨hS1.running, hS1.latched⟩
  rw [run_step 2 s _ h.step_eq, firstPhase, hS1.run_succ_eq rfl rfl, hS2.run_succ_eq rfl rfl, run_zero]
  simp [sendDataOpened, acceptWord, presentedPayload, h.request, goto, emit, startOperation, writeDC, writeCS, setIndex]

/-- From the end of the loop: the end test, S4 and S5. -/
theorem run_sendData_closes (h : Runs (.sendData len) s) (hp : s.ph = .sendDataS3) (hi : s.idx = len) :
    run 3 s = .next (respond (statusCode .ok) 0 (writeCS false s)) := by
  have hdone : exec (.sendData len) s = .next (goto .sendDataS4 s) := by simp [exec, execSendData, hp, hi]
  have hS4 : Runs (.sendData len) (goto .sendDataS4 s) := ⟨h.running, h.latched⟩
  have hS5 : Runs (.sendData len) (goto .sendDataS5 (writeCS false (goto .sendDataS4 s))) := ⟨h.running, h.latched⟩
  rw [h.run_succ_eq (by simp [hp, phaseOpcode, Instr.opcode]) hdone, hS4.run_succ_eq rfl rfl,
    hS5.run_succ_eq rfl rfl, run_zero]
  rfl

end SendData

/-- Settles O34: the window opens, the loop runs `len` times, by induction, and the window closes. -/
theorem sendDataRuns : Obligations.SendDataRuns := by
  intro s len payload later h hlen hok
  have hruns := h.runs_sendDataOpened
  have hloop := (sendData_sendsPayload len).run_iterations hruns rfl rfl le_rfl hlen.ge hok
  have htake : payload.take len.toNat = payload := List.take_of_length_le hlen.le
  rw [show 2 * len.toNat + 6 = 3 + (2 * len.toNat + 3) by omega, run_add 3 _ _ _ h.run_sendData_opens,
    run_add _ 3 _ _ hloop, run_sendData_closes (hruns.afterBytes _) rfl (by simp [afterBytes])]
  simp [afterBytes, sendDataOpened, ended, respond, writeCS, goto, emit, State.trace, htake]

/-- Settles O35: the loop runs `k` times, by induction, and the next iteration's transfer raises. -/
theorem sendDataFails : Obligations.SendDataFails := by
  intro s len payload later k byte h hk hb ⟨hok, hfail⟩
  have hruns := h.runs_sendDataOpened
  have hpay : k ≤ payload.length := (List.getElem?_eq_some_iff.mp hb).1.le
  have hloop := (sendData_sendsPayload len).run_iterations hruns rfl rfl hk.le hpay hok
  rw [show 2 * k + 8 = 3 + (2 * k + 5) by omega, run_add 3 _ _ _ h.run_sendData_opens, run_add _ 5 _ _ hloop,
    (sendData_sendsPayload len).run_failure hruns rfl hk hb hfail]
  simp [afterBytes, sendDataOpened, aborted, ended, State.trace]

/-! ### Where bytes are transmitted (R51, R110, R117) -/

section Transmits
variable {i : Instr} {s t : State} {byte : Byte} {answer : TxAnswer}

/-- The bytes an operation hands to the bus, by phase: the code in a command phase, the byte read or repeated in a data phase
(R111 to R114). -/
inductive Transmits : Instr → Phase → Byte → Prop
  | command (code : Byte) : Transmits (.sendCommand code) .sendCommandS3 code
  | data (len : Word32) (byte : Byte) : Transmits (.sendData len) (.sendDataS3Tx byte) byte
  | commandBeforeData (code : Byte) (len : Word32) : Transmits (.sendCommandWithData code len) .sendCommandWithDataS3 code
  | dataAfterCommand (code : Byte) (len : Word32) (byte : Byte) :
      Transmits (.sendCommandWithData code len) (.sendCommandWithDataS5Tx byte) byte
  | repeated (value : Byte) (count : Word32) : Transmits (.repeatByte value count) .repeatByteS3 value

/-- The newest event of `t`, one more than those of `s`, is a transfer. -/
def NewestIsTx (s t : State) (byte : Byte) (answer : TxAnswer) : Prop := t.log = .tx byte answer :: s.log

theorem AbortMoves.not_newestIsTx (h : AbortMoves s t) : ¬ NewestIsTx s t byte answer := by
  cases h <;> simp [NewestIsTx]

theorem TxMoves.byte_eq {handed : Byte} {onOk : State → State} (h : TxMoves handed onOk s t)
    (hquiet : ∀ u, (onOk u).log = u.log) (htx : NewestIsTx s t byte answer) : handed = byte := by
  cases h <;> simp_all [NewestIsTx]

theorem Moves.transmits (h : Moves i s t) (htx : NewestIsTx s t byte answer) : Transmits i s.ph byte := by
  cases h with
  | abort _ _ _ ha => exact absurd htx ha.not_newestIsTx
  | sendCommandS3 code _ _ hp h =>
    rw [hp, ← h.byte_eq (fun _ => rfl) htx]
    exact .command code
  | sendDataS3Tx len _ _ _ hp h =>
    rw [hp, h.byte_eq (fun _ => rfl) htx]
    exact .data len byte
  | withDataS3 code len _ _ hp h =>
    rw [hp, ← h.byte_eq (fun _ => rfl) htx]
    exact .commandBeforeData code len
  | withDataS5Tx code len _ _ _ hp h =>
    rw [hp, h.byte_eq (fun _ => rfl) htx]
    exact .dataAfterCommand code len byte
  | repeatByteS3 value count _ _ hp _ h =>
    rw [hp, ← h.byte_eq (fun _ => rfl) htx]
    exact .repeated value count
  | _ => simp [NewestIsTx] at htx

theorem StepMoves.transmits (h : StepMoves s t) (htx : NewestIsTx s t byte answer) :
    ∃ i, decode (latchedWord s) = .instr i ∧ Transmits i s.ph byte := by
  cases h with
  | waits => simp [NewestIsTx] at htx
  | accepts _ _ _ _ hp _ _ hmove =>
    have := hp ▸ hmove.transmits htx
    cases this
  | acceptsReserved => simp [NewestIsTx] at htx
  | operation _ i hd _ hmove => exact ⟨i, hd, hmove.transmits htx⟩
  | aborts _ ha => exact absurd htx ha.not_newestIsTx

theorem step_transmits (h : step s = .next t) (htx : NewestIsTx s t byte answer) :
    ∃ i, decode (latchedWord s) = .instr i ∧ Transmits i s.ph byte := by
  rcases stepMoves_of_step s t h with ⟨levels, -, rfl⟩ | ⟨-, hmove⟩
  · simp [NewestIsTx] at htx
  · exact hmove.transmits htx

theorem Transmits.selected (h : Transmits i s.ph byte) (hs : Consistent s) : s.csel = true ∧ s.rst = true := by
  rw [hs.select, hs.reset]
  generalize s.ph = p at h
  cases h <;> exact ⟨rfl, rfl⟩

theorem Transmits.of_level (h : Transmits i s.ph byte) (hs : Consistent s) :
    (s.dc = false ∧ (i = .sendCommand byte ∨ ∃ len, i = .sendCommandWithData byte len)) ∨
      (s.dc = true ∧ ((∃ len, i = .sendData len) ∨ (∃ code len, i = .sendCommandWithData code len) ∨
        ∃ count, i = .repeatByte byte count)) := by
  have hlevel := hs.level
  generalize s.ph = p at h hlevel
  cases h with
  | command => exact .inl ⟨hlevel _ rfl, .inl rfl⟩
  | commandBeforeData _ len => exact .inl ⟨hlevel _ rfl, .inr ⟨len, rfl⟩⟩
  | data len => exact .inr ⟨hlevel _ rfl, .inl ⟨len, rfl⟩⟩
  | dataAfterCommand code len => exact .inr ⟨hlevel _ rfl, .inr (.inl ⟨code, len, rfl⟩)⟩
  | repeated _ count => exact .inr ⟨hlevel _ rfl, .inr (.inr ⟨count, rfl⟩)⟩

end Transmits

/-- Settles O18: only a transmitting phase of the latched operation emits `Tx`, and the invariant fixes the lines there. -/
theorem transmitsOnlyWhileSelected : Obligations.TransmitsOnlyWhileSelected := by
  intro s t byte answer hs h htrace
  have htx : NewestIsTx s t byte answer := by simpa [State.trace, NewestIsTx] using congrArg List.reverse htrace
  obtain ⟨i, hd, hsends⟩ := step_transmits h htx
  obtain ⟨hcsel, hrst⟩ := hsends.selected hs
  refine ⟨hcsel, hrst, ?_⟩
  simpa only [hd, Decoded.instr.injEq] using hsends.of_level hs

/-! ### The frame of the pure operations (R50, R157, R175, R187) -/

section Pure
variable {i : Instr} {s t : State}

/-- The moves of `computeWindow`, `computeCounter` and `expand` in one shape, as far as their frame needs: S1 writes `ST` and
`RES`, and S2, where the operation has started, answers. -/
inductive PureMoves (i : Instr) : State → State → Prop
  | accept (s : State) (hp : s.ph = .idle) : PureMoves i s (acceptWord (encode i) (firstPhase i) s)
  | abort (s t : State) (h : AbortMoves s t) : PureMoves i s t
  | noMove (s : State) : PureMoves i s s
  | compute (s : State) (next : Phase) (v : ResultWord) (hp : s.ph ∈ [.computeWindowS1, .computeCounterS1, .expandS1]) :
      PureMoves i s (goto next (setResult v (startOperation s)))
  | answer (s : State) (hp : started s.ph = true) : PureMoves i s (respond (statusCode .ok) s.res s)

theorem Moves.pureMoves (h : Moves i s t) (hi : isPure i = true) : PureMoves i s t := by
  cases h with
  | accept _ _ hp => exact .accept s hp
  | abort _ _ _ ha => exact .abort s t ha
  | noMove => exact .noMove s
  | windowS1Invalid _ _ hp | windowS1 _ _ hp | counterS1 _ _ _ hp | expandS1 _ _ hp =>
    exact .compute s _ _ (by simp [hp])
  | windowS2 _ _ hp | counterS2 _ _ _ hp | expandS2 _ _ hp => exact .answer s (by simp [hp, started])
  | _ => cases hi

/-- From `s` to `t` the data/command and reset lines, the counters and every port but `REQ`, `PAY` and `RSP` stand. -/
structure SamePorts (s t : State) : Prop where
  dc : t.dc = s.dc
  rst : t.rst = s.rst
  idx : t.idx = s.idx
  npoll : t.npoll = s.npoll
  bus : t.bus = s.bus
  busy : t.busy = s.busy
  dly : t.dly = s.dly
  waitLimit : t.waitLimit = s.waitLimit
  hrst : t.hrst = s.hrst

theorem AbortMoves.samePorts (h : AbortMoves s t) : SamePorts s t := by cases h <;> constructor <;> rfl

theorem PureMoves.samePorts (h : PureMoves i s t) : SamePorts s t := by
  cases h with
  | abort _ ha => exact ha.samePorts
  | _ => constructor <;> rfl

theorem AbortMoves.response_eq (h : AbortMoves s t) (ha : ∀ e, s.ph ≠ .abortA1 e) : t.st = s.st ∧ t.res = s.res := by
  cases h with
  | a1 e hp => exact absurd hp (ha e)
  | _ => exact ⟨rfl, rfl⟩

theorem PureMoves.response_eq (h : PureMoves i s t) (hp : s.ph ∉ [.computeWindowS1, .computeCounterS1, .expandS1])
    (ha : ∀ e, s.ph ≠ .abortA1 e) : t.st = s.st ∧ t.res = s.res := by
  cases h with
  | abort _ h => exact h.response_eq ha
  | compute _ _ hp' => exact absurd hp' hp
  | _ => exact ⟨rfl, rfl⟩

theorem AbortMoves.request_eq (h : AbortMoves s t) :
    t.opr = s.opr ∧ t.a = s.a ∧ t.b = s.b ∧ t.req = s.req ∧ t.pay = s.pay := by
  cases h <;> exact ⟨rfl, rfl, rfl, rfl, rfl⟩

theorem PureMoves.request_eq (h : PureMoves i s t) (hi : s.ph ≠ .idle) :
    t.opr = s.opr ∧ t.a = s.a ∧ t.b = s.b ∧ t.req = s.req ∧ t.pay = s.pay := by
  cases h with
  | accept hp => exact absurd hp hi
  | abort _ h => exact h.request_eq
  | _ => exact ⟨rfl, rfl, rfl, rfl, rfl⟩

/-- At A2 with chip-select released the abort sequence touches no line and emits nothing but the response. -/
theorem AbortMoves.csel_eq (h : AbortMoves s t) (hc : s.ph = .abortA2 → s.csel = false) : t.csel = s.csel := by
  cases h with
  | a2Release hp hsel => simp [hc hp] at hsel
  | _ => rfl

theorem PureMoves.csel_eq (h : PureMoves i s t) (hc : s.ph = .abortA2 → s.csel = false) : t.csel = s.csel := by
  cases h with
  | abort _ ha => exact ha.csel_eq hc
  | _ => rfl

theorem AbortMoves.log_eq (h : AbortMoves s t) (hc : s.ph = .abortA2 → s.csel = false) :
    t.log = s.log ∨ s.ph = .abortA3 ∧ t.log = .rsp s.st 0 :: s.log := by
  cases h with
  | a1 | a2Released => exact .inl rfl
  | a2Release hp hsel => simp [hc hp] at hsel
  | a3 hp => exact .inr ⟨hp, rfl⟩

/-- The events of a pure operation: `Req` in `IDLE`, `Rsp` at S2 and at A3. -/
theorem PureMoves.log_eq (h : PureMoves i s t) (hc : s.ph = .abortA2 → s.csel = false) :
    t.log = s.log ∨ (s.ph = .idle ∧ t.log = .req (encode i) :: s.log) ∨
      (s.ph ≠ .abortA2 ∧ ∃ status result, t.log = .rsp status result :: s.log) := by
  cases h with
  | accept hp => exact .inr (.inl ⟨hp, rfl⟩)
  | abort _ ha =>
    rcases ha.log_eq hc with hlog | ⟨hp, hlog⟩
    · exact .inl hlog
    · exact .inr (.inr ⟨by simp [hp], _, _, hlog⟩)
  | noMove | compute => exact .inl rfl
  | answer hp => exact .inr (.inr ⟨fun ha => by simp [ha, started] at hp, _, _, rfl⟩)

theorem isFraming_eq_false_of_isPure (h : isPure i = true) : isFraming i = false := by
  cases i <;> simp_all [isPure, isFraming]

/-- At A2 chip-select is asserted only for `BusError`, whose cause is a framing operation (R187). -/
theorem Consistent.csel_at_abortA2 (hs : Consistent s) (hp : s.ph = .abortA2) (hd : decode (latchedWord s) = .instr i)
    (hi : isFraming i = false) : s.csel = false := by
  have hcause := hs.cause
  rw [hp, hd] at hcause
  obtain ⟨e, hst, he⟩ := hcause
  have hne : e ≠ .busError := by
    rintro rfl
    obtain ⟨j, _, _, hj, hf, _⟩ := he
    cases hj
    simp [hi] at hf
  rw [hs.select, hp, hst]
  simpa [selectedIn, statusCode_eq_busError_iff] using hne

end Pure

/-- Settles O49: each part of the frame by cases over the moves of the pure operations; at A2 chip-select is released. -/
theorem pureFrame : Obligations.PureFrame := by
  intro i s t hi h
  have hmove := (moves_of_exec i s t h).pureMoves hi
  have hreleased : (s.ph = .abortA2 → Consistent s ∧ decode (latchedWord s) = .instr i) →
      s.ph = .abortA2 → s.csel = false := fun hA2 hp =>
    (hA2 hp).1.csel_at_abortA2 hp (hA2 hp).2 (isFraming_eq_false_of_isPure hi)
  obtain ⟨hdc, hrst, hidx, hnpoll, hbus, hbusy, hdly, hlimit, hhrst⟩ := hmove.samePorts
  refine ⟨hdc, hrst, hidx, hnpoll, hbus, hbusy, hdly, hlimit, hhrst, fun hA2 => hmove.csel_eq (hreleased hA2),
    fun ⟨hp, ha⟩ => hmove.response_eq hp ha, hmove.request_eq, fun hA2 => ?_, fun hp hs hd => ?_⟩
  · rcases hmove.log_eq (hreleased hA2) with hlog | ⟨hp, hlog⟩ | ⟨-, status, result, hlog⟩
    · exact .inl (congrArg List.reverse hlog)
    · exact .inr (.inl ⟨hp, by simp [State.trace, hlog]⟩)
    · exact .inr (.inr ⟨status, result, by simp [State.trace, hlog]⟩)
  · rcases hmove.log_eq (hreleased fun _ => ⟨hs, hd⟩) with hlog | ⟨hidle, -⟩ | ⟨hne, -⟩
    · exact congrArg List.reverse hlog
    · simp [hp] at hidle
    · exact absurd hp hne

/-! ### The layout of the values (R56, R57, R63, R87, R89, R153, R174) -/

theorem bufferLength_eq (r : Rectangle) : bufferLength r = bytesPerRow r * r.height.toNat := by
  rw [bufferLength, byteRoundedWidth, show (8 * bytesPerRow r + 7) / 8 = bytesPerRow r by omega]

/-- The bytes the requested width asks for fit in a row of the window. -/
theorem width_le_bytesPerRow (r : Rectangle) (hw : 1 ≤ r.width.toNat) : (r.width.toNat + 7) / 8 ≤ bytesPerRow r := by
  rw [bytesPerRow, windowXStart_eq_div, windowXEnd_eq_div]
  omega

/-- Settles O51: the byte-rounded width is a whole number of bytes, not fewer than the requested width needs. -/
theorem bufferSizedToRoundedWidth : Obligations.BufferSizedToRoundedWidth := by
  intro r hw
  rw [bufferLength_eq]
  exact ⟨rfl, Nat.mul_le_mul_right _ (width_le_bytesPerRow r hw)⟩

theorem getLsbD_three (k : Nat) : (3#16).getLsbD k = decide (k < 2) := by
  rw [BitVec.getLsbD_ofNat]
  rcases k with _ | _ | k
  · decide
  · decide
  · simp [Nat.testBit_succ]

/-- The loop of R170 has set output bit `j` from input bit `j / 2` once it has passed that bit. -/
theorem getLsbD_expandBits (byte : Byte) (n j : Nat) (hj : j < 16) :
    (expandBits byte n).getLsbD j = (decide (j / 2 < n) && byte.getLsbD (j / 2)) := by
  induction n with
  | zero => simp [expandBits]
  | succ n ih =>
    rw [expandBits, BitVec.getLsbD_or, ih]
    rcases Nat.lt_trichotomy (j / 2) n with hlt | rfl | hgt
    · have hbelow : j < 2 * n := by omega
      split <;> simp [hlt, hbelow, Nat.lt_succ_of_lt hlt]
    · have hpair : ¬ j < 2 * (j / 2) ∧ j - 2 * (j / 2) < 2 := by omega
      split <;> simp_all [getLsbD_three]
    · have habove : ¬ j - 2 * n < 2 ∧ ¬ j / 2 < n ∧ ¬ j / 2 < n + 1 := by omega
      split <;> simp [habove, getLsbD_three]

/-- Each input bit is doubled (R170, R172). -/
theorem getLsbD_expandValue (byte : Byte) (j : Nat) (hj : j < 16) :
    (expandValue byte).getLsbD j = byte.getLsbD (j / 2) := by
  rw [expandValue, getLsbD_expandBits byte 8 j hj, decide_eq_true (by omega), Bool.true_and]

/-- The table of R174 doubles each bit of the nibble. -/
theorem getLsbD_nibbleExpansion :
    ∀ (n : BitVec 4) (j : Fin 8), (nibbleExpansion n).getLsbD j = n.getLsbD (j / 2) := by decide

theorem firstByte_expandValue (byte : Byte) :
    firstByte (expandValue byte) = nibbleExpansion (byte.extractLsb' 4 4) := by
  refine BitVec.eq_of_getLsbD_eq fun j hj => ?_
  have hhalf : j / 2 < 4 ∧ (8 + j) / 2 = 4 + j / 2 := by omega
  rw [getLsbD_nibbleExpansion _ ⟨j, hj⟩, firstByte, highByte, BitVec.getLsbD_extractLsb',
    getLsbD_expandValue byte _ (by omega), BitVec.getLsbD_extractLsb', hhalf.2]
  simp [hj, hhalf.1]

theorem secondByte_expandValue (byte : Byte) :
    secondByte (expandValue byte) = nibbleExpansion (byte.extractLsb' 0 4) := by
  refine BitVec.eq_of_getLsbD_eq fun j hj => ?_
  have hhalf : j / 2 < 4 := by omega
  rw [getLsbD_nibbleExpansion _ ⟨j, hj⟩, secondByte, lowByte, BitVec.getLsbD_extractLsb',
    getLsbD_expandValue byte _ (by omega), BitVec.getLsbD_extractLsb']
  simp [hj, hhalf]

/-- A 16-bit value is its first transmitted byte, then its second (R57). -/
theorem firstByte_append_secondByte (v : BitVec 16) : firstByte v ++ secondByte v = v := by
  calc firstByte v ++ secondByte v
      = v.extractLsb' 0 16 := BitVec.extractLsb'_append_extractLsb'_eq_extractLsb' (Nat.zero_add 8).symm
    _ = v := BitVec.extractLsb'_eq_self

/-- Settles O58: bit by bit, the expansion and the table both double each bit of a nibble. -/
theorem nibbleTableExpands : Obligations.NibbleTableExpands := by
  intro byte
  refine ⟨?_, firstByte_expandValue byte, secondByte_expandValue byte⟩
  rw [← firstByte_expandValue, ← secondByte_expandValue, firstByte_append_secondByte]

section Fields
variable (r : Rectangle) (x y : Coord)

theorem windowResult_xStart : (windowResult r).extractLsb' 0 8 = BitVec.ofNat 8 (windowXStart r) :=
  BitVec.extractLsb'_append_eq_right

theorem windowResult_xEnd : (windowResult r).extractLsb' 8 8 = BitVec.ofNat 8 (windowXEnd r) := by
  rw [windowResult, BitVec.extractLsb'_append_eq_of_le le_rfl, BitVec.extractLsb'_append_eq_right]

/-- Any part of the Y start field is that part of `y`. -/
theorem windowResult_yStart (start len : Nat) (h : start + len ≤ 16) :
    (windowResult r).extractLsb' (16 + start) len = r.y.extractLsb' start len := by
  rw [windowResult, BitVec.extractLsb'_append_eq_of_le (by omega), BitVec.extractLsb'_append_eq_of_le (by omega),
    show 16 + start - 8 - 8 = start by omega, BitVec.extractLsb'_append_eq_of_add_le h, windowYStart, BitVec.ofNat_toNat,
    BitVec.setWidth_eq]

theorem windowResult_yEnd : (windowResult r).extractLsb' 32 16 = BitVec.ofNat 16 (windowYEnd r) := by
  rw [windowResult, BitVec.extractLsb'_append_eq_of_le (by omega), BitVec.extractLsb'_append_eq_of_le (by omega),
    BitVec.extractLsb'_append_eq_left]

theorem counterResult_x : (counterResult x y).extractLsb' 0 8 = BitVec.ofNat 8 (counterX x) := by
  rw [counterResult, BitVec.extractLsb'_setWidth_of_le (by omega), BitVec.extractLsb'_append_eq_right]

theorem counterResult_yLow : (counterResult x y).extractLsb' 8 8 = lowByte y := by
  rw [counterResult, BitVec.extractLsb'_setWidth_of_le (by omega), BitVec.extractLsb'_append_eq_of_le le_rfl,
    BitVec.extractLsb'_append_eq_right]

theorem counterResult_yHigh : (counterResult x y).extractLsb' 16 8 = highByte y := by
  rw [counterResult, BitVec.extractLsb'_setWidth_of_le (by omega), BitVec.extractLsb'_append_eq_of_le (by omega),
    BitVec.extractLsb'_append_eq_left]

/-- A zero-extended value is 0 above its width. -/
theorem extractLsb'_setWidth_above {m n : Nat} (v : BitVec m) (len : Nat) :
    (v.setWidth n).extractLsb' m len = 0 := by
  ext i hi
  simp

/-- The X start byte lies at or below the X end byte, which fits. -/
theorem windowXStart_lt (hf : windowFits r = true) (hw : 1 ≤ r.width.toNat) : windowXStart r < 2 ^ 8 := by
  rw [windowFits_iff] at hf
  rw [windowXStart_eq_div]
  omega

theorem windowXEnd_lt (hf : windowFits r = true) : windowXEnd r < 2 ^ 8 := by
  rw [windowFits_iff] at hf
  rw [windowXEnd_eq_div]
  omega

theorem windowYEnd_lt (hf : windowFits r = true) : windowYEnd r < 2 ^ 16 := by
  rw [windowFits_iff] at hf
  rw [windowYEnd]
  omega

theorem counterX_lt (hf : counterFits x = true) : counterX x < 2 ^ 8 := by
  rw [counterFits_iff] at hf
  rw [counterX_eq_div]
  omega

end Fields

/-- Settles O55: each field is one part of a concatenation, and a value that fits is read back from its field. -/
theorem resultFieldsPacked : Obligations.ResultFieldsPacked := by
  refine ⟨fun r hf hw => ?_, fun r hf => ⟨?_, ?_, ?_, ?_⟩, fun x y hf => ⟨?_, ?_, ?_, ?_⟩, fun byte => ⟨?_, ?_⟩,
    fun status result => ⟨?_, ?_⟩⟩
  · rw [windowResult_xStart, BitVec.toNat_ofNat, Nat.mod_eq_of_lt (windowXStart_lt r hf hw)]
  · rw [windowResult_xEnd, BitVec.toNat_ofNat, Nat.mod_eq_of_lt (windowXEnd_lt r hf)]
  · exact windowResult_yStart r 0 8 (by omega)
  · exact windowResult_yStart r 8 8 (by omega)
  · rw [windowResult_yEnd, BitVec.toNat_ofNat, Nat.mod_eq_of_lt (windowYEnd_lt r hf), windowYEnd]
  · rw [counterResult_x, BitVec.toNat_ofNat, Nat.mod_eq_of_lt (counterX_lt x hf)]
  · exact counterResult_yLow x y
  · exact counterResult_yHigh x y
  · exact extractLsb'_setWidth_above _ 24
  · exact (BitVec.extractLsb'_setWidth_of_le (by omega)).trans BitVec.extractLsb'_eq_self
  · exact extractLsb'_setWidth_above _ 32
  · exact BitVec.extractLsb'_append_eq_left
  · exact BitVec.extractLsb'_append_eq_right

end Sys2Proof.Machine
end

section
/-! Proofs of the family 30_encoding: the encoder, the decoder and the opcode table (O1 to O4), the answer to a reserved word
(O5), the cause of each error status (O20), the micro-steps and the whole operations of `computeWindow`, `computeCounter` and
`expand` (O30, O31, O32, O44, O45), and the counter against the window (O53). -/

namespace Sys2Proof

/-! ### The encoder and the decoder against the opcode table (R80 to R86) -/

/-- Settles O1: only an operation's own row matches its word, and each operand lies alone in its field. -/
theorem decodeEncodeAgree : Obligations.DecodeEncodeAgree := decode_encode

/-- Settles O2: the must-be-zero bits are the bits no operand field names. -/
theorem legalWordEncodesBack : Obligations.LegalWordEncodesBack := fun _ _ => encode_of_decode

theorem Row.hits_iff (r : Row) (w : RequestWord) : r.hits w = true ↔ w &&& r.mask = r.bits := decide_eq_true_iff

theorem row_mem_opcodeTable (i : Instr) : i.row ∈ opcodeTable := by
  cases i <;> simp [Instr.row, opcodeTable]

/-- The family FitsRow, for every operation at once. -/
theorem fitsRow_statement (i : Instr) : Laws.FitsRow.Statement i := by
  cases i with
  | sendCommand code => exact Laws.FitsRow.sendCommand code
  | sendData len => exact Laws.FitsRow.sendData len
  | sendCommandWithData code len => exact Laws.FitsRow.sendCommandWithData code len
  | repeatByte value count => exact Laws.FitsRow.repeatByte value count
  | reset low after => exact Laws.FitsRow.reset low after
  | waitUntilIdle flag => exact Laws.FitsRow.waitUntilIdle flag
  | computeWindow rect => exact Laws.FitsRow.computeWindow rect
  | computeCounter x y => exact Laws.FitsRow.computeCounter x y
  | expand byte => exact Laws.FitsRow.expand byte

theorem row_hits_of_decode {w : RequestWord} {i : Instr} (h : decode w = .instr i) : i.row.hits w = true := by
  rw [← encode_of_decode h]
  exact (fitsRow_statement i).2

/-- The decoder tries every row of the table before it answers `Reserved`. -/
theorem not_hits_of_decode_reserved {w : RequestWord} {why : ReservedWhy} (h : decode w = .reserved why) :
    ∀ r ∈ opcodeTable, r.hits w = false := by
  unfold decode at h
  split_ifs at h
  simp_all [opcodeTable]

theorem decode_reserved_iff (w : RequestWord) :
    (∃ why, decode w = .reserved why) ↔ ∀ r ∈ opcodeTable, w &&& r.mask ≠ r.bits := by
  constructor
  · rintro ⟨why, h⟩ r hr heq
    have hmiss := not_hits_of_decode_reserved h r hr
    simp [(r.hits_iff w).mpr heq] at hmiss
  · intro hmiss
    rcases hd : decode w with i | why
    · exact absurd ((i.row.hits_iff w).mp (row_hits_of_decode hd)) (hmiss i.row (row_mem_opcodeTable i))
    · exact ⟨why, rfl⟩

theorem fieldOp_and (v w : RequestWord) : fieldOp (v &&& w) = fieldOp v &&& fieldOp w := BitVec.extractLsb'_and

theorem fieldOp_mask_of_mem : ∀ r ∈ opcodeTable, fieldOp r.mask = BitVec.allOnes 8 := by decide

theorem row_eq_of_opcode_eq : ∀ r ∈ opcodeTable, ∀ q ∈ opcodeTable, fieldOp r.bits = fieldOp q.bits → r = q := by decide

/-- Every mask covers the operation code, so a word that a row matches carries the row's code (R83). -/
theorem fieldOp_eq_of_match {w : RequestWord} {r : Row} (hr : r ∈ opcodeTable) (h : w &&& r.mask = r.bits) :
    fieldOp w = fieldOp r.bits :=
  calc fieldOp w = fieldOp w &&& fieldOp r.mask := by rw [fieldOp_mask_of_mem r hr, BitVec.and_allOnes]
    _ = fieldOp (w &&& r.mask) := (fieldOp_and ..).symm
    _ = fieldOp r.bits := by rw [h]

/-- Settles O3: the decoder tries every row, a legal word is its operation's encoding, and the operation code, which every
mask covers, tells the rows apart. -/
theorem decoderFollowsTable : Obligations.DecoderFollowsTable := by
  refine ⟨decode_reserved_iff, fun w i hd => ⟨row_mem_opcodeTable i, ?_⟩, fun w r hr q hq hrw hqw => ?_⟩
  · exact (i.row.hits_iff w).mp (row_hits_of_decode hd)
  · exact row_eq_of_opcode_eq r hr q hq ((fieldOp_eq_of_match hr hrw).symm.trans (fieldOp_eq_of_match hq hqw))

/-- Settles O4, by evaluating the decoder on the nine words. -/
theorem sampleWordsDecode : Obligations.SampleWordsDecode := by
  unfold Obligations.SampleWordsDecode
  decide

namespace Machine

/-! ### A reserved word is answered (R86, R184, R187) -/

/-- The step from a presented reserved word latches it and raises `IllegalRequest`. -/
theorem step_acceptReserved {s : State} {r : Request} {later : List Request} {why : ReservedWhy} (hp : s.ph = .idle)
    (hr : s.hrst = []) (hreq : s.req = r :: later) (hd : decode r.word = .reserved why) :
    step s = .next (acceptWord r.word (.abortA1 .illegalRequest) s) := by
  rw [step_of_no_reset s hr, sequencerStep_reserved s r later why hp hreq hd, acceptReserved_eq]

/-- A request that raises `e` right after its acceptance, with chip-select released, ends with `e` and no event of its own. -/
theorem aborted_eq_ended {s : State} {w : RequestWord} {payload : List Byte} {later : List Request} {first : Phase}
    (e : Status) (hreq : s.req = ⟨w, payload⟩ :: later) (hc : s.csel = false) :
    aborted e (acceptWord w first s) = ended s w payload later e 0 [] := by
  simp [aborted, ended, acceptWord, presentedPayload, hreq, hc, goto, emit, State.trace]

/-- Settles O5: the word decodes to `Reserved`, its acceptance raises, and the abort sequence responds. -/
theorem illegalRequestAnswered : Obligations.IllegalRequestAnswered := by
  intro s w payload later hmiss hp hc hr hreq
  obtain ⟨why, hd⟩ := (decode_reserved_iff w).mpr hmiss
  have habort := run_abort (s := acceptWord w (.abortA1 .illegalRequest) s) hr rfl
  rw [run_step 3 s _ (step_acceptReserved hp hr hreq hd), habort, aborted_eq_ended .illegalRequest hreq hc]

/-! ### The cause of an error status (R88, R181 to R184) -/

section Responses
variable {i : Instr} {s t : State} {status : StatusBits} {result : ResultWord}

/-- The newest event of `t`, one more than those of `s`, is a response. -/
def NewestIsRsp (s t : State) (status : StatusBits) (result : ResultWord) : Prop := t.log = .rsp status result :: s.log

/-- From `s` the block answers `OK`, or, at A3, the status in `ST` with result 0. -/
def AnswersOkOrAborts (s : State) (status : StatusBits) (result : ResultWord) : Prop :=
  status = statusCode .ok ∨ (s.ph = .abortA3 ∧ status = s.st ∧ result = 0)

theorem AbortMoves.answers (h : AbortMoves s t) (hrsp : NewestIsRsp s t status result) :
    AnswersOkOrAborts s status result := by
  cases h with
  | a3 hp =>
    injection hrsp with hevent
    injection hevent with hstatus hresult
    exact .inr ⟨hp, hstatus.symm, hresult.symm⟩
  | _ => simp [NewestIsRsp] at hrsp

theorem TxMoves.not_newestIsRsp {byte : Byte} {onOk : State → State} (h : TxMoves byte onOk s t)
    (hquiet : ∀ u, (onOk u).log = u.log) : ¬ NewestIsRsp s t status result := by
  cases h <;> simp [NewestIsRsp, hquiet]

/-- Outside the abort sequence an operation's last micro-step answers `OK` and no other micro-step answers. -/
theorem Moves.answers (h : Moves i s t) (hrsp : NewestIsRsp s t status result) : AnswersOkOrAborts s status result := by
  cases h with
  | abort _ _ _ ha => exact ha.answers hrsp
  | sendCommandS3 _ _ _ _ htx | sendDataS3Tx _ _ _ _ _ htx | withDataS3 _ _ _ _ _ htx | withDataS5Tx _ _ _ _ _ _ htx
  | repeatByteS3 _ _ _ _ _ _ htx =>
    exact absurd hrsp (htx.not_newestIsRsp fun _ => rfl)
  | sendCommandS5 | sendDataS5 | withDataS7 | repeatByteS5 | resetS5 | waitS3 | windowS2 | counterS2 | expandS2 =>
    injection hrsp with hevent
    injection hevent with hstatus
    exact .inl hstatus.symm
  | _ => simp [NewestIsRsp] at hrsp

theorem StepMoves.answers (h : StepMoves s t) (hrsp : NewestIsRsp s t status result) :
    AnswersOkOrAborts s status result := by
  cases h with
  | waits | acceptsReserved => simp [NewestIsRsp] at hrsp
  | accepts _ _ _ _ _ _ _ hmove | operation _ _ _ _ hmove => exact hmove.answers hrsp
  | aborts _ ha => exact ha.answers hrsp

theorem step_answers (h : step s = .next t) (hrsp : NewestIsRsp s t status result) :
    AnswersOkOrAborts s status result := by
  rcases stepMoves_of_step s t h with ⟨levels, -, rfl⟩ | ⟨-, hmove⟩
  · simp [NewestIsRsp] at hrsp
  · exact hmove.answers hrsp

end Responses

/-- Settles O20: only A3 answers anything but `OK`, and there the invariant holds the error's cause. -/
theorem errorStatusHasItsCause : Obligations.ErrorStatusHasItsCause := by
  intro s t status result hs h htrace
  have hrsp : NewestIsRsp s t status result := by simpa [State.trace, NewestIsRsp] using congrArg List.reverse htrace
  rcases step_answers h hrsp with hok | ⟨hp, hstatus, hresult⟩
  · exact ⟨.ok, hok, fun hne => absurd rfl hne⟩
  · have hcause := hs.cause
    rw [hp] at hcause
    obtain ⟨e, earlier, hst, hlog, he⟩ := hcause
    exact ⟨e, hstatus.trans hst, fun _ => ⟨hresult, earlier, hlog, he⟩⟩

/-! ### The micro-steps of the pure operations (R151, R154, R155, R170) -/

/-- The acceptance loads the operation code and the operand words of R82 and takes the request from the port. -/
theorem acceptWord_encode (i : Instr) (first : Phase) (s : State) :
    acceptWord (encode i) first s =
      { s with
        ph := first, opr := i.opcode, a := i.operandA, b := i.operandB, pay := presentedPayload s, req := s.req.tail,
        log := .req (encode i) :: s.log } := by
  simp [acceptWord, goto, emit]

theorem exec_accepts (i : Instr) (s : State) (hp : s.ph = .idle) :
    exec i s = .next
      { s with
        ph := firstPhase i, opr := i.opcode, a := i.operandA, b := i.operandB, pay := presentedPayload s,
        req := s.req.tail, log := .req (encode i) :: s.log } := by
  rw [exec_idle i s hp, acceptWord_encode]

section PureMicroSteps
variable {s : State} {r : Rectangle} {x y : Coord} {byte : Byte}

theorem windowDegenerate_iff (r : Rectangle) : windowDegenerate r = true ↔ r.width = 0 ∨ r.height = 0 :=
  decide_eq_true_iff

theorem windowDegenerate_eq_false (hw : r.width ≠ 0) (hh : r.height ≠ 0) : windowDegenerate r = false :=
  decide_eq_false (not_or.mpr ⟨hw, hh⟩)

theorem exec_computeWindowS1_degenerate (hp : s.ph = .computeWindowS1) (hd : windowDegenerate r = true) :
    exec (.computeWindow r) s = .next (raise .invalidWindow (startOperation s)) := by
  simp [exec, execComputeWindow, hp, windowStep, hd]

theorem exec_computeWindowS1_fits (hp : s.ph = .computeWindowS1) (hd : windowDegenerate r = false)
    (hf : windowFits r = true) :
    exec (.computeWindow r) s = .next (goto .computeWindowS2 (setResult (windowResult r) (startOperation s))) := by
  simp [exec, execComputeWindow, hp, windowStep, hd, hf]

theorem exec_computeWindowS1_refused (hp : s.ph = .computeWindowS1) (hd : windowDegenerate r = false)
    (hf : windowFits r = false) : exec (.computeWindow r) s = .refused .resultOutOfRange := by
  simp [exec, execComputeWindow, hp, windowStep, hd, hf]

theorem exec_computeWindowS2 (hp : s.ph = .computeWindowS2) :
    exec (.computeWindow r) s = .next (respond (statusCode .ok) s.res s) := by
  simp [exec, execComputeWindow, hp]

theorem exec_computeCounterS1_fits (hp : s.ph = .computeCounterS1) (hf : counterFits x = true) :
    exec (.computeCounter x y) s = .next (goto .computeCounterS2 (setResult (counterResult x y) (startOperation s))) := by
  simp [exec, execComputeCounter, hp, hf]

theorem exec_computeCounterS1_refused (hp : s.ph = .computeCounterS1) (hf : counterFits x = false) :
    exec (.computeCounter x y) s = .refused .resultOutOfRange := by
  simp [exec, execComputeCounter, hp, hf]

theorem exec_computeCounterS2 (hp : s.ph = .computeCounterS2) :
    exec (.computeCounter x y) s = .next (respond (statusCode .ok) s.res s) := by
  simp [exec, execComputeCounter, hp]

theorem exec_expandS1 (hp : s.ph = .expandS1) :
    exec (.expand byte) s = .next (goto .expandS2 (setResult (expandResult byte) (startOperation s))) := by
  simp [exec, execExpand, hp]

theorem exec_expandS2 (hp : s.ph = .expandS2) :
    exec (.expand byte) s = .next (respond (statusCode .ok) s.res s) := by
  simp [exec, execExpand, hp]

end PureMicroSteps

/-- The packed result with the Y start field as the operand itself (R89, R151). -/
theorem windowResult_eq (r : Rectangle) :
    windowResult r =
      BitVec.ofNat 16 (r.y.toNat + r.height.toNat) ++ r.y ++
        BitVec.ofNat 8 ((r.x.toNat + r.width.toNat - 1) >>> 3) ++ BitVec.ofNat 8 (r.x.toNat >>> 3) := by
  rw [windowResult, windowYStart, BitVec.ofNat_toNat, BitVec.setWidth_eq]
  rfl

/-- Settles O30: the zero test, then the range test, and the two fixed micro-steps. -/
theorem computeWindowMicroSteps : Obligations.ComputeWindowMicroSteps := by
  intro r s
  refine ⟨exec_accepts _ s, fun hp hzero => ?_, fun hp hw hh hx hy => ?_, fun hp hw hh hout => ?_, exec_computeWindowS2⟩
  · exact exec_computeWindowS1_degenerate hp ((windowDegenerate_iff r).mpr hzero)
  · rw [← windowResult_eq]
    exact exec_computeWindowS1_fits hp (windowDegenerate_eq_false hw hh) (decide_eq_true ⟨hx, hy⟩)
  · exact exec_computeWindowS1_refused hp (windowDegenerate_eq_false hw hh)
      (decide_eq_false fun ⟨hx, hy⟩ => hout.elim (Nat.not_lt.mpr hx) (Nat.not_lt.mpr hy))

/-- The counter's fields as one number: the X byte, the low byte of `y`, its high byte (R89, R154). -/
theorem counterResult_eq (x y : Coord) (hf : counterFits x = true) :
    counterResult x y = BitVec.ofNat 48 (x.toNat / 8 + 2 ^ 8 * (y.toNat % 2 ^ 8) + 2 ^ 16 * (y.toNat / 2 ^ 8)) := by
  have hx := counterX_lt x hf
  have hy := y.isLt
  refine BitVec.eq_of_toNat_eq ?_
  rw [counterResult, BitVec.toNat_setWidth, toNat_append_eq, toNat_append_eq, highByte_toNat, lowByte_toNat,
    BitVec.toNat_ofNat, BitVec.toNat_ofNat, Nat.mod_eq_of_lt hx, counterX_eq_div]
  congr 1
  omega

/-- Settles O31: the range test on `x`, the packed fields as one number, and the two fixed micro-steps. -/
theorem computeCounterMicroSteps : Obligations.ComputeCounterMicroSteps := by
  intro x y s
  refine ⟨exec_accepts _ s, fun hp hx => ?_, fun hp hx => ?_, exec_computeCounterS2⟩
  · have hfits := (counterFits_iff x).mpr hx
    rw [← counterResult_eq x y hfits]
    exact exec_computeCounterS1_fits hp hfits
  · refine exec_computeCounterS1_refused hp (Bool.eq_false_iff.mpr fun hfits => ?_)
    exact absurd ((counterFits_iff x).mp hfits) (Nat.not_le.mpr hx)

/-- Settles O32: the value of R170 has each bit of the byte twice. -/
theorem expandMicroSteps : Obligations.ExpandMicroSteps := by
  intro byte s
  refine ⟨exec_accepts _ s, fun hp => ⟨expandValue byte, fun j hj => ⟨?_, ?_⟩, exec_expandS1 hp⟩, exec_expandS2⟩
  · rw [getLsbD_expandValue byte _ (by omega), show 2 * j / 2 = j by omega]
  · rw [getLsbD_expandValue byte _ (by omega), show (2 * j + 1) / 2 = j by omega]

/-! ### The pure operations as a whole (R157, R175, R182) -/

section PureRuns
variable {i : Instr} {s : State} {payload : List Byte} {later : List Request}

/-- A presented operation is the one that runs once it has been accepted. -/
theorem Presents.runs_accepted (h : Presents s i payload later) :
    Runs i (acceptWord (encode i) (firstPhase i) s) := ⟨h.running, latchedWord_acceptWord ..⟩

/-- The acceptance and S1. -/
theorem Presents.run_first (h : Presents s i payload later) {t : State}
    (hS1 : exec i (acceptWord (encode i) (firstPhase i) s) = .next t) (k : Nat) : run (k + 2) s = run k t := by
  rw [run_step (k + 1) s _ h.step_eq, h.runs_accepted.run_succ_eq (phaseOpcode_firstPhase i) hS1]

/-- A raise in an operation's first micro-step: A1 overwrites the `ST` and `RES` the start has written. -/
theorem run_raise (e : Status) (hr : s.hrst = []) : run 3 (raise e (startOperation s)) = .next (aborted e s) :=
  run_abort hr rfl

/-- An operation whose S1 computes `v` and whose S2 answers it touches nothing else. -/
theorem Presents.run_computes (h : Presents s i payload later) {answering : Phase} {v : ResultWord}
    (hown : phaseOpcode answering = some i.opcode)
    (hcompute : ∀ u : State, u.ph = firstPhase i →
      exec i u = .next (goto answering (setResult v (startOperation u))))
    (hanswer : ∀ u : State, u.ph = answering → exec i u = .next (respond (statusCode .ok) u.res u)) :
    run 3 s = .next (ended s (encode i) payload later .ok v []) := by
  have hS2 : Runs i (goto answering (setResult v (startOperation (acceptWord (encode i) (firstPhase i) s)))) :=
    ⟨h.running, h.runs_accepted.latched⟩
  rw [h.run_first (hcompute _ rfl), hS2.run_succ_eq hown (hanswer _ rfl), run_zero]
  simp [ended, acceptWord, presentedPayload, h.request, goto, emit, setResult, startOperation, respond, State.trace]

end PureRuns

/-- Settles O44: S1 computes the fields, or raises and the abort sequence answers. -/
theorem computeWindowRuns : Obligations.ComputeWindowRuns := by
  intro s r payload later h
  refine ⟨fun hw hh hx hy => ?_, fun hzero hc => ?_⟩
  · have hd : windowDegenerate r = false := windowDegenerate_eq_false (by bv_omega) (by bv_omega)
    exact h.run_computes rfl (fun _ hp => exec_computeWindowS1_fits hp hd ((windowFits_iff r).mpr ⟨hx, hy⟩))
      fun _ => exec_computeWindowS2
  · have hS1 := exec_computeWindowS1_degenerate (s := acceptWord (encode (.computeWindow r)) .computeWindowS1 s) rfl
      ((windowDegenerate_iff r).mpr hzero)
    have habort := run_raise (s := acceptWord (encode (.computeWindow r)) .computeWindowS1 s) .invalidWindow h.running
    rw [h.run_first hS1 3, habort, aborted_eq_ended .invalidWindow h.request hc]

/-- Settles O45: S1 computes the result, S2 answers it. -/
theorem counterAndExpandRun : Obligations.CounterAndExpandRun := by
  refine ⟨fun s x y payload later h hx => ?_, fun s byte payload later h => ?_⟩
  · exact h.run_computes rfl (fun _ hp => exec_computeCounterS1_fits hp ((counterFits_iff x).mpr hx))
      fun _ => exec_computeCounterS2
  · exact h.run_computes rfl (fun _ => exec_expandS1) fun _ => exec_expandS2

/-! ### The counter against the window (R89, R154) -/

theorem counterResult_y (x y : Coord) : (counterResult x y).extractLsb' 8 16 = y := by
  rw [counterResult, BitVec.extractLsb'_setWidth_of_le (by omega), BitVec.extractLsb'_append_eq_left]
  exact firstByte_append_secondByte y

/-- Settles O53: both X bytes are `x >> 3`, and both Y fields are `y`. -/
theorem counterAgreesWithWindow : Obligations.CounterAgreesWithWindow := by
  intro r
  constructor
  · rw [counterResult_x, windowResult_xStart]
    rfl
  · rw [counterResult_y, windowResult_yStart r 0 16 le_rfl, BitVec.extractLsb'_eq_self]

end Machine
end Sys2Proof
end

section
/-! Proofs of the family 40_busframer: the micro-steps of `sendData`, `sendCommandWithData`, `repeatByte`, `reset` and
`waitUntilIdle` (O25 to O29, O59), the whole operations of the BusFramer (O33, O36 to O43, O46), the lines at a response
and inside a select window (O17, O19), and what its micro-steps leave unchanged (O47, O48). -/

namespace Sys2Proof.Machine

/-! ### A byte handed to the bus, whatever the operation (R34, R181, R231) -/

section Transmit
variable {i : Instr} {s : State} {byte : Byte} {onOk : State → State}

theorem exec_transmit_ok (he : exec i s = .next (transmit byte onOk s)) (hb : s.bus.head = some .ok) :
    exec i s = .next (onOk (emit (.tx byte .ok) { s with bus := s.bus.tail })) := by rw [he, transmit_ok _ _ _ hb]

theorem exec_transmit_fail (he : exec i s = .next (transmit byte onOk s)) (hb : s.bus.head = some .fail) :
    exec i s = .next (raise .busError (emit (.tx byte .fail) { s with bus := s.bus.tail })) := by
  rw [he, transmit_fail _ _ _ hb]

theorem exec_transmit_pending (he : exec i s = .next (transmit byte onOk s)) (hb : s.bus.head = none) :
    exec i s = .next { s with bus := s.bus.tail } := by rw [he, transmit_pending _ _ _ hb]

end Transmit

/-! ### The select window of a byte loop (R110, R112 to R114) -/

/-- Operation `i` opens its select window with `DC` at `level` in its first two micro-steps and goes on at `inside`. -/
structure OpensWindow (i : Instr) (level : Level) (selecting inside : Phase) : Prop where
  selecting_own : phaseOpcode selecting = some i.opcode
  starts : ∀ s : State, s.ph = firstPhase i → exec i s = .next (goto selecting (writeDC level (startOperation s)))
  selects : ∀ s : State, s.ph = selecting → exec i s = .next (goto inside (setIndex 0 (writeCS true s)))

/-- Operation `i` leaves its byte loop at `loop` once `IDX` is `len`, releases chip-select and answers `OK`. -/
structure ClosesWindow (i : Instr) (len : Word32) (loop releasing answering : Phase) : Prop where
  loop_own : phaseOpcode loop = some i.opcode
  releasing_own : phaseOpcode releasing = some i.opcode
  answering_own : phaseOpcode answering = some i.opcode
  ends : ∀ s : State, s.ph = loop → s.idx = len → exec i s = .next (goto releasing s)
  releases : ∀ s : State, s.ph = releasing → exec i s = .next (goto answering (writeCS false s))
  answers : ∀ s : State, s.ph = answering → exec i s = .next (respond (statusCode .ok) 0 s)

section Operations
variable (code value : Byte) (len count : Word32)

theorem sendData_opensWindow : OpensWindow (.sendData len) true .sendDataS2 .sendDataS3 where
  selecting_own := rfl
  starts s hp := by simp_all [exec, execSendData, firstPhase]
  selects s hp := by simp [exec, execSendData, hp]

theorem sendCommandWithData_opensWindow :
    OpensWindow (.sendCommandWithData code len) false .sendCommandWithDataS2 .sendCommandWithDataS3 where
  selecting_own := rfl
  starts s hp := by simp_all [exec, execSendCommandWithData, firstPhase]
  selects s hp := by simp [exec, execSendCommandWithData, hp]

theorem repeatByte_opensWindow : OpensWindow (.repeatByte value count) true .repeatByteS2 .repeatByteS3 where
  selecting_own := rfl
  starts s hp := by simp_all [exec, execRepeatByte, firstPhase]
  selects s hp := by simp [exec, execRepeatByte, hp]

theorem sendData_closesWindow : ClosesWindow (.sendData len) len .sendDataS3 .sendDataS4 .sendDataS5 where
  loop_own := rfl
  releasing_own := rfl
  answering_own := rfl
  ends s hp hi := by simp [exec, execSendData, hp, hi]
  releases s hp := by simp [exec, execSendData, hp]
  answers s hp := by simp [exec, execSendData, hp]

theorem sendCommandWithData_closesWindow :
    ClosesWindow (.sendCommandWithData code len) len .sendCommandWithDataS5 .sendCommandWithDataS6
      .sendCommandWithDataS7 where
  loop_own := rfl
  releasing_own := rfl
  answering_own := rfl
  ends s hp hi := by simp [exec, execSendCommandWithData, hp, hi]
  releases s hp := by simp [exec, execSendCommandWithData, hp]
  answers s hp := by simp [exec, execSendCommandWithData, hp]

theorem repeatByte_closesWindow :
    ClosesWindow (.repeatByte value count) count .repeatByteS3 .repeatByteS4 .repeatByteS5 where
  loop_own := rfl
  releasing_own := rfl
  answering_own := rfl
  ends s hp hi := by simp [exec, execRepeatByte, hp, hi]
  releases s hp := by simp [exec, execRepeatByte, hp]
  answers s hp := by simp [exec, execRepeatByte, hp]

theorem sendCommandWithData_sendsPayload :
    SendsPayload (.sendCommandWithData code len) len .sendCommandWithDataS5 .sendCommandWithDataS5Tx where
  loop_own := rfl
  carrying_own _ := rfl
  reads s byte hp hi hb := by simp [exec, execSendCommandWithData, hp, hi, hb]
  transmits s byte hp := by simp [exec, execSendCommandWithData, hp]

end Operations

/-! ### The micro-steps of the byte loops (R112 to R114, R226) -/

section LoopMicroSteps
variable {s : State} {code value : Byte} {len count : Word32}

/-- The host holds no byte at or above its payload's length (U7). -/
theorem payRead_eq_none (h : s.pay.length ≤ s.idx.toNat) : payRead s.idx s = none := List.getElem?_eq_none h

theorem exec_sendDataS3_refused (hp : s.ph = .sendDataS3) (hi : s.idx ≠ len) (hb : s.pay.length ≤ s.idx.toNat) :
    exec (.sendData len) s = .refused .payloadMissing := by
  simp [exec, execSendData, hp, hi, payRead_eq_none hb]

theorem exec_sendCommandWithDataS3 (hp : s.ph = .sendCommandWithDataS3) :
    exec (.sendCommandWithData code len) s = .next (transmit code (goto .sendCommandWithDataS4) s) := by
  simp [exec, execSendCommandWithData, hp]

theorem exec_sendCommandWithDataS4 (hp : s.ph = .sendCommandWithDataS4) :
    exec (.sendCommandWithData code len) s = .next (goto .sendCommandWithDataS5 (writeDC true s)) := by
  simp [exec, execSendCommandWithData, hp]

theorem exec_sendCommandWithDataS5_refused (hp : s.ph = .sendCommandWithDataS5) (hi : s.idx ≠ len)
    (hb : s.pay.length ≤ s.idx.toNat) : exec (.sendCommandWithData code len) s = .refused .payloadMissing := by
  simp [exec, execSendCommandWithData, hp, hi, payRead_eq_none hb]

theorem exec_repeatByteS3 (hp : s.ph = .repeatByteS3) (hi : s.idx ≠ count) :
    exec (.repeatByte value count) s = .next (transmit value (nextByte .repeatByteS3) s) := by
  simp [exec, execRepeatByte, hp, hi]

/-- A `repeatByte` transfer that answers `ok` stays in the loop's one phase. -/
theorem exec_repeatByteS3_ok (hp : s.ph = .repeatByteS3) (hi : s.idx ≠ count) (hb : s.bus.head = some .ok) :
    exec (.repeatByte value count) s = .next
      { s with idx := s.idx + 1, bus := s.bus.tail, log := .tx value .ok :: s.log } := by
  rw [exec_transmit_ok (exec_repeatByteS3 hp hi) hb, ← hp]
  rfl

end LoopMicroSteps

/-- Settles O25: the window opens, the loop reads and transmits or is refused, and the window closes. -/
theorem sendDataMicroSteps : Obligations.SendDataMicroSteps := by
  intro len s
  have hopens := sendData_opensWindow len
  have hloop := sendData_sendsPayload len
  have hcloses := sendData_closesWindow len
  exact ⟨exec_accepts _ s, hopens.starts s, hopens.selects s, hcloses.ends s, hloop.reads s, exec_sendDataS3_refused,
    fun byte hp => exec_transmit_ok (hloop.transmits s byte hp),
    fun byte hp => exec_transmit_fail (hloop.transmits s byte hp),
    fun byte hp => exec_transmit_pending (hloop.transmits s byte hp), hcloses.releases s, hcloses.answers s⟩

/-- Settles O26: as `sendData`, with the command byte and the change of `DC` before the loop. -/
theorem sendCommandWithDataMicroSteps : Obligations.SendCommandWithDataMicroSteps := by
  intro code len s
  have hopens := sendCommandWithData_opensWindow code len
  have hloop := sendCommandWithData_sendsPayload code len
  have hcloses := sendCommandWithData_closesWindow code len
  exact ⟨exec_accepts _ s, hopens.starts s, hopens.selects s,
    fun hp => exec_transmit_ok (exec_sendCommandWithDataS3 hp),
    fun hp => exec_transmit_fail (exec_sendCommandWithDataS3 hp),
    fun hp => exec_transmit_pending (exec_sendCommandWithDataS3 hp), exec_sendCommandWithDataS4,
    hcloses.ends s, hloop.reads s, exec_sendCommandWithDataS5_refused,
    fun byte hp => exec_transmit_ok (hloop.transmits s byte hp),
    fun byte hp => exec_transmit_fail (hloop.transmits s byte hp),
    fun byte hp => exec_transmit_pending (hloop.transmits s byte hp), hcloses.releases s, hcloses.answers s⟩

/-- Settles O27: the window opens, the loop transmits the value, and the window closes. -/
theorem repeatByteMicroSteps : Obligations.RepeatByteMicroSteps := by
  intro value count s
  have hopens := repeatByte_opensWindow value count
  have hcloses := repeatByte_closesWindow value count
  exact ⟨exec_accepts _ s, hopens.starts s, hopens.selects s, hcloses.ends s, exec_repeatByteS3_ok,
    fun hp hi => exec_transmit_fail (exec_repeatByteS3 hp hi),
    fun hp hi => exec_transmit_pending (exec_repeatByteS3 hp hi), hcloses.releases s, hcloses.answers s⟩

/-! ### The micro-steps of `reset` and `waitUntilIdle` (R115, R116, R120) -/

section ResetMicroSteps
variable {i : Instr} {s : State} {low after ms : Word32} {next : Phase}

theorem exec_delay_completed (he : exec i s = .next (delay ms next s)) (hd : s.dly.head = .completed) :
    exec i s = .next (goto next (emit (.dly ms) { s with dly := s.dly.tail })) := by rw [he, delay_completed _ _ _ hd]

theorem exec_delay_pending (he : exec i s = .next (delay ms next s)) (hd : s.dly.head = .pending) :
    exec i s = .next { s with dly := s.dly.tail } := by rw [he, delay_pending _ _ _ hd]

theorem exec_resetS1 (hp : s.ph = .resetS1) :
    exec (.reset low after) s = .next (goto .resetS2 (writeRST false (startOperation s))) := by
  simp [exec, execReset, hp]

theorem exec_resetS2 (hp : s.ph = .resetS2) : exec (.reset low after) s = .next (delay low .resetS3 s) := by
  simp [exec, execReset, hp]

theorem exec_resetS3 (hp : s.ph = .resetS3) : exec (.reset low after) s = .next (goto .resetS4 (writeRST true s)) := by
  simp [exec, execReset, hp]

theorem exec_resetS4 (hp : s.ph = .resetS4) : exec (.reset low after) s = .next (delay after .resetS5 s) := by
  simp [exec, execReset, hp]

theorem exec_resetS5 (hp : s.ph = .resetS5) : exec (.reset low after) s = .next (respond (statusCode .ok) 0 s) := by
  simp [exec, execReset, hp]

end ResetMicroSteps

/-- Settles O28: each phase's branch, and each reply of the delay primitive. -/
theorem resetMicroSteps : Obligations.ResetMicroSteps := by
  intro low after s
  exact ⟨exec_accepts _ s, exec_resetS1, fun hp => exec_delay_completed (exec_resetS2 hp),
    fun hp => exec_delay_pending (exec_resetS2 hp), exec_resetS3, fun hp => exec_delay_completed (exec_resetS4 hp),
    fun hp => exec_delay_pending (exec_resetS4 hp), exec_resetS5⟩

/-- Settles O59: the four rows of R120. -/
theorem busyStateTable : Obligations.BusyStateTable := by
  unfold Obligations.BusyStateTable
  decide

section WaitMicroSteps
variable {s : State} {p : Bool}

theorem busyState_eq_false_iff (p : Bool) (l : Level) : busyState p l = false ↔ l = p := by
  rw [busyStateTable]
  exact bne_eq_false_iff_eq

theorem busyState_eq_true_iff (p : Bool) (l : Level) : busyState p l = true ↔ l ≠ p := by
  rw [← Bool.not_eq_false, not_congr (busyState_eq_false_iff p l)]

theorem limitReached_eq_true_iff (limit polls : Word32) : limitReached limit polls = true ↔ limit ≠ 0 ∧ polls = limit :=
  decide_eq_true_iff

/-- The count of busy samples saturates (R28). -/
theorem toNat_pollCount (n : Word32) : (pollCount n).toNat = min (n.toNat + 1) (2 ^ 32 - 1) := by
  unfold pollCount
  split
  next h => simp [h]
  next h =>
    have hmax : n.toNat ≠ 2 ^ 32 - 1 := fun heq => h (BitVec.eq_of_toNat_eq heq)
    bv_omega

theorem exec_waitUntilIdleS1 (hp : s.ph = .waitUntilIdleS1) :
    exec (.waitUntilIdle p) s = .next (goto .waitUntilIdleS2 (setPolls 0 (startOperation s))) := by
  simp [exec, execWaitUntilIdle, hp]

theorem exec_waitUntilIdleS2_idle (hp : s.ph = .waitUntilIdleS2) (hb : busyState p s.busy.head = false) :
    exec (.waitUntilIdle p) s = .next (goto .waitUntilIdleS3 (sampleBusy s)) := by
  simp [exec, execWaitUntilIdle, hp, pollOnce, hb]

theorem exec_waitUntilIdleS2_counts (hp : s.ph = .waitUntilIdleS2) (hb : busyState p s.busy.head = true)
    (hl : limitReached s.waitLimit (pollCount s.npoll) = false) :
    exec (.waitUntilIdle p) s = .next (setPolls (pollCount s.npoll) (sampleBusy s)) := by
  simp [exec, execWaitUntilIdle, hp, pollOnce, hb, hl]

theorem exec_waitUntilIdleS2_timesOut (hp : s.ph = .waitUntilIdleS2) (hb : busyState p s.busy.head = true)
    (hl : limitReached s.waitLimit (pollCount s.npoll) = true) :
    exec (.waitUntilIdle p) s = .next (raise .timeout (setPolls (pollCount s.npoll) (sampleBusy s))) := by
  simp [exec, execWaitUntilIdle, hp, pollOnce, hb, hl]

theorem exec_waitUntilIdleS3 (hp : s.ph = .waitUntilIdleS3) :
    exec (.waitUntilIdle p) s = .next (respond (statusCode .ok) 0 s) := by
  simp [exec, execWaitUntilIdle, hp]

theorem operandA_waitUntilIdle (p : Bool) : (Instr.waitUntilIdle p).operandA = if p then 1 else 0 := by
  cases p <;> rfl

end WaitMicroSteps

/-- Settles O29: a sample that reads idle ends the wait; one that reads busy counts, and times out at the limit. -/
theorem waitUntilIdleMicroSteps : Obligations.WaitUntilIdleMicroSteps := by
  intro p s
  refine ⟨fun hp => ?_, exec_waitUntilIdleS1, fun hp hl => ?_, fun hp hl n hn => ?_, exec_waitUntilIdleS3⟩
  · rw [← operandA_waitUntilIdle]
    exact exec_accepts _ s hp
  · exact exec_waitUntilIdleS2_idle hp ((busyState_eq_false_iff ..).mpr hl)
  · have hbusy := (busyState_eq_true_iff ..).mpr hl
    obtain rfl : n = pollCount s.npoll := BitVec.eq_of_toNat_eq (hn.trans (toNat_pollCount _).symm)
    refine ⟨fun hgoes => exec_waitUntilIdleS2_counts hp hbusy ?_,
      fun hne heq => exec_waitUntilIdleS2_timesOut hp hbusy ?_⟩
    · rw [Bool.eq_false_iff, ne_eq, limitReached_eq_true_iff, not_and_or, not_not]
      exact hgoes
    · exact (limitReached_eq_true_iff ..).mpr ⟨hne, heq⟩

/-! ### A select window as a whole (R110, R118, R119) -/

/-- Operation `i` accepted and its select window opened, with `DC` at `level`, before the first byte. -/
def opened (i : Instr) (level : Level) (inside : Phase) (payload : List Byte) (later : List Request) (s : State) :
    State :=
  { s with
    ph := inside, csel := true, dc := level, idx := 0, st := statusCode .ok, res := 0,
    opr := fieldOp (encode i), a := fieldA (encode i), b := fieldB (encode i), pay := payload, req := later,
    log := .lineCS true :: .lineDC level :: .req (encode i) :: s.log }

section Window
variable {i : Instr} {level : Level} {selecting inside : Phase} {len : Word32} {loop releasing answering : Phase}
  {payload : List Byte} {later : List Request} {s : State}

theorem Presents.runs_opened (h : Presents s i payload later) : Runs i (opened i level inside payload later s) :=
  ⟨h.running, packRequest_fields _⟩

/-- The acceptance, the write of `DC` and the assertion of chip-select. -/
theorem OpensWindow.run_opens (hi : OpensWindow i level selecting inside) (h : Presents s i payload later) :
    run 3 s = .next (opened i level inside payload later s) := by
  have hselecting : Runs i (goto selecting (writeDC level (startOperation (acceptWord (encode i) (firstPhase i) s)))) :=
    ⟨h.running, h.runs_accepted.latched⟩
  rw [h.run_first (hi.starts _ rfl), hselecting.run_succ_eq hi.selecting_own (hi.selects _ rfl), run_zero]
  simp [opened, acceptWord, presentedPayload, h.request, goto, emit, startOperation, writeDC, writeCS, setIndex]

/-- The end test of the loop, the release of chip-select and the response. -/
theorem ClosesWindow.run_closes (hi : ClosesWindow i len loop releasing answering) (h : Runs i s) (hp : s.ph = loop)
    (hidx : s.idx = len) : run 3 s = .next (respond (statusCode .ok) 0 (writeCS false s)) := by
  have hreleasing : Runs i (goto releasing s) := ⟨h.running, h.latched⟩
  have hanswering : Runs i (goto answering (writeCS false (goto releasing s))) := ⟨h.running, h.latched⟩
  rw [h.run_succ_eq (by rw [hp, hi.loop_own]) (hi.ends s hp hidx),
    hreleasing.run_succ_eq hi.releasing_own (hi.releases _ rfl),
    hanswering.run_succ_eq hi.answering_own (hi.answers _ rfl), run_zero]
  rfl

theorem allOk.head {bus : Draws (Option TxAnswer)} {n : Nat} (h : allOk bus (n + 1)) : bus.head = some .ok :=
  h 0 n.succ_pos

theorem allOk.tail {bus : Draws (Option TxAnswer)} {n : Nat} (h : allOk bus (n + 1)) : allOk bus.tail n := by
  intro k hk
  rw [Draws.tail_drop]
  exact h (k + 1) (by omega)

theorem failsAt.tail {bus : Draws (Option TxAnswer)} {n : Nat} (h : failsAt bus (n + 1)) : failsAt bus.tail n := by
  obtain ⟨hok, hfail⟩ := h
  exact ⟨hok.tail, by rwa [Draws.tail_drop]⟩

end Window

section Transfer
variable {i : Instr} {s : State} {byte : Byte} {onOk : State → State}

theorem Runs.run_transmit_ok (h : Runs i s) (hp : phaseOpcode s.ph = some i.opcode)
    (he : exec i s = .next (transmit byte onOk s)) (hb : s.bus.head = some .ok) (n : Nat) :
    run (n + 1) s = run n (onOk (emit (.tx byte .ok) { s with bus := s.bus.tail })) :=
  h.run_succ_eq hp (exec_transmit_ok he hb) n

/-- A transfer that fails aborts its operation with `BusError` (R121, R181, R187). -/
theorem Runs.run_transmit_fail (h : Runs i s) (hp : phaseOpcode s.ph = some i.opcode)
    (he : exec i s = .next (transmit byte onOk s)) (hb : s.bus.head = some .fail) :
    run 4 s = .next (aborted .busError { s with bus := s.bus.tail, log := .tx byte .fail :: s.log }) := by
  rw [h.run_succ_eq hp (exec_transmit_fail he hb)]
  exact run_abort h.running rfl

end Transfer

/-! ### `sendCommand` as a whole (R111, R187) -/

section SendCommand
variable {s : State} {code : Byte} {payload : List Byte} {later : List Request}

/-- `sendCommand` accepted and its select window opened; `IDX` stands. -/
def sendCommandOpened (code : Byte) (payload : List Byte) (later : List Request) (s : State) : State :=
  { opened (.sendCommand code) false .sendCommandS3 payload later s with idx := s.idx }

theorem Presents.runs_sendCommandOpened (h : Presents s (.sendCommand code) payload later) :
    Runs (.sendCommand code) (sendCommandOpened code payload later s) := ⟨h.running, packRequest_fields _⟩

theorem Presents.run_sendCommand_opens (h : Presents s (.sendCommand code) payload later) :
    run 3 s = .next (sendCommandOpened code payload later s) := by
  have hS2 : Runs (.sendCommand code)
      (goto .sendCommandS2
        (writeDC false (startOperation (acceptWord (encode (.sendCommand code)) .sendCommandS1 s)))) :=
    ⟨h.running, h.runs_accepted.latched⟩
  rw [h.run_first rfl, firstPhase, hS2.run_succ_eq rfl rfl, run_zero]
  simp [sendCommandOpened, opened, acceptWord, presentedPayload, h.request, goto, emit, startOperation, writeDC, writeCS]

theorem exec_sendCommandS3 (hp : s.ph = .sendCommandS3) :
    exec (.sendCommand code) s = .next (transmit code (goto .sendCommandS4) s) := by
  simp [exec, execSendCommand, hp]

/-- S3 with a transfer that succeeds, S4 and S5. -/
theorem Runs.run_sendCommand_ok (h : Runs (.sendCommand code) s) (hp : s.ph = .sendCommandS3)
    (hb : s.bus.head = some .ok) :
    run 3 s = .next (respond (statusCode .ok) 0 (writeCS false (emit (.tx code .ok) { s with bus := s.bus.tail }))) := by
  have hS4 : Runs (.sendCommand code) (goto .sendCommandS4 (emit (.tx code .ok) { s with bus := s.bus.tail })) :=
    ⟨h.running, h.latched⟩
  have hS5 : Runs (.sendCommand code) (goto .sendCommandS5 (writeCS false
      (goto .sendCommandS4 (emit (.tx code .ok) { s with bus := s.bus.tail })))) := ⟨h.running, h.latched⟩
  rw [h.run_transmit_ok (congrArg phaseOpcode hp) (exec_sendCommandS3 hp) hb, hS4.run_succ_eq rfl rfl,
    hS5.run_succ_eq rfl rfl, run_zero]
  rfl

end SendCommand

/-- Settles O33: the window opens; the transfer succeeds and the window closes, or it fails and the operation aborts. -/
theorem sendCommandRuns : Obligations.SendCommandRuns := by
  intro s code payload later h
  have hopened := h.runs_sendCommandOpened
  refine ⟨fun hb => ?_, fun hb => ?_⟩
  · rw [run_add 3 3 _ _ h.run_sendCommand_opens, hopened.run_sendCommand_ok rfl hb]
    simp [sendCommandOpened, opened, ended, respond, writeCS, goto, emit, State.trace]
  · rw [run_add 3 4 _ _ h.run_sendCommand_opens, hopened.run_transmit_fail rfl (exec_sendCommandS3 rfl) hb]
    simp [sendCommandOpened, opened, ended, aborted, State.trace]

/-! ### `sendCommandWithData` as a whole (R113, R119, R121) -/

section SendCommandWithData
variable {s : State} {code : Byte} {len : Word32} {payload : List Byte} {later : List Request}

/-- The command byte transmitted and `DC` raised, before the first data byte. -/
def commandSent (code : Byte) (s : State) : State :=
  { s with
    ph := .sendCommandWithDataS5, dc := true, bus := s.bus.tail, log := .lineDC true :: .tx code .ok :: s.log }

theorem Runs.commandSent (h : Runs (.sendCommandWithData code len) s) :
    Runs (.sendCommandWithData code len) (commandSent code s) := ⟨h.running, h.latched⟩

/-- The command byte's transfer and the change of `DC`. -/
theorem Runs.run_command (h : Runs (.sendCommandWithData code len) s) (hp : s.ph = .sendCommandWithDataS3)
    (hb : s.bus.head = some .ok) : run 2 s = .next (Machine.commandSent code s) := by
  have hS4 : Runs (.sendCommandWithData code len)
      (goto .sendCommandWithDataS4 (emit (.tx code .ok) { s with bus := s.bus.tail })) := ⟨h.running, h.latched⟩
  rw [h.run_transmit_ok (congrArg phaseOpcode hp) (exec_sendCommandWithDataS3 hp) hb,
    hS4.run_succ_eq rfl (exec_sendCommandWithDataS4 rfl), run_zero]
  rfl

/-- From the request to the first data byte. -/
theorem Presents.run_commandSent (h : Presents s (.sendCommandWithData code len) payload later)
    (hb : s.bus.head = some .ok) :
    run 5 s = .next (commandSent code
      (opened (.sendCommandWithData code len) false .sendCommandWithDataS3 payload later s)) := by
  rw [run_add 3 2 _ _ ((sendCommandWithData_opensWindow code len).run_opens h), h.runs_opened.run_command rfl hb]

end SendCommandWithData

/-- Settles O36: the command byte, the loop over the payload, by induction, and the close, in one window. -/
theorem sendCommandWithDataRuns : Obligations.SendCommandWithDataRuns := by
  intro s code len payload later h hlen hok
  have hsent := (h.runs_opened (level := false) (inside := .sendCommandWithDataS3)).commandSent
  have hloop := (sendCommandWithData_sendsPayload code len).run_iterations hsent rfl rfl le_rfl hlen.ge hok.tail
  have hclose := (sendCommandWithData_closesWindow code len).run_closes (hsent.afterBytes len.toNat) rfl
    (by simp [afterBytes])
  have htake : payload.take len.toNat = payload := List.take_of_length_le hlen.le
  rw [show 2 * len.toNat + 8 = 5 + (2 * len.toNat + 3) by omega, run_add 5 _ _ _ (h.run_commandSent hok.head),
    run_add _ 3 _ _ hloop, hclose]
  simp [afterBytes, commandSent, opened, ended, respond, writeCS, goto, emit, State.trace, htake]

/-- Settles O37: the command byte's transfer raises, or the loop runs `k` times and the next transfer raises. -/
theorem sendCommandWithDataFails : Obligations.SendCommandWithDataFails := by
  intro s code len payload later h
  have hopened : Runs _ (opened (.sendCommandWithData code len) false .sendCommandWithDataS3 payload later s) :=
    h.runs_opened
  refine ⟨fun hb => ?_, fun k byte hk hbyte hfails => ?_⟩
  · rw [run_add 3 4 _ _ ((sendCommandWithData_opensWindow code len).run_opens h),
      hopened.run_transmit_fail rfl (exec_sendCommandWithDataS3 rfl) hb]
    simp [opened, ended, aborted, State.trace]
  · obtain ⟨hok, hfail⟩ := hfails.tail
    have hcommand : s.bus.head = some .ok := hfails.1.head
    have hpay : k ≤ payload.length := (List.getElem?_eq_some_iff.mp hbyte).1.le
    have hbytes := sendCommandWithData_sendsPayload code len
    have hloop := hbytes.run_iterations hopened.commandSent rfl rfl hk.le hpay hok
    rw [show 2 * k + 10 = 5 + (2 * k + 5) by omega, run_add 5 _ _ _ (h.run_commandSent hcommand), run_add _ 5 _ _ hloop,
      hbytes.run_failure hopened.commandSent rfl hk hbyte hfail]
    simp [afterBytes, commandSent, opened, ended, aborted, State.trace]

/-! ### `repeatByte` as a whole (R114, R119, R121) -/

/-- A state at the head of the loop with `IDX` 0, after `value` has been transmitted `k` times. -/
def afterRepeats (value : Byte) (k : Nat) (s : State) : State :=
  { s with
    idx := BitVec.ofNat 32 k, bus := s.bus.drop k, log := List.replicate k (.tx value .ok) ++ s.log }

section RepeatByte
variable {s : State} {value : Byte} {count : Word32} {k : Nat}

theorem afterRepeats_zero (h : s.idx = 0) : afterRepeats value 0 s = s := by
  cases s
  simp_all [afterRepeats]

theorem Runs.afterRepeats {i : Instr} (h : Runs i s) (value : Byte) (k : Nat) : Runs i (afterRepeats value k s) :=
  ⟨h.running, h.latched⟩

/-- Below the count the loop transmits again. -/
theorem exec_afterRepeats (hp : s.ph = .repeatByteS3) (hk : k < count.toNat) :
    exec (.repeatByte value count) (afterRepeats value k s) =
      .next (transmit value (nextByte .repeatByteS3) (afterRepeats value k s)) :=
  exec_repeatByteS3 hp (ofNat_ne_of_lt hk)

/-- `k` transfers that succeed, by induction on `k` (R114, R119). -/
theorem Runs.run_repeats (h : Runs (.repeatByte value count) s) (hp : s.ph = .repeatByteS3) (hidx : s.idx = 0)
    (hk : k ≤ count.toNat) (hok : allOk s.bus k) : run k s = .next (Machine.afterRepeats value k s) := by
  induction k with
  | zero => rw [afterRepeats_zero hidx, run_zero]
  | succ k ih =>
    have hb : (s.bus.drop k).head = some .ok := hok k k.lt_succ_self
    rw [run_add k 1 _ _ (ih (by omega) fun j hj => hok j (by omega)),
      (h.afterRepeats value k).run_transmit_ok (congrArg phaseOpcode hp) (exec_afterRepeats hp hk) hb, run_zero]
    simp [Machine.afterRepeats, nextByte, setIndex, goto, emit, hp, BitVec.ofNat_add, List.replicate_succ]

/-- After `k` transfers that succeeded, one that fails aborts the operation with `BusError`. -/
theorem Runs.run_repeat_failure (h : Runs (.repeatByte value count) s) (hp : s.ph = .repeatByteS3) (hk : k < count.toNat)
    (hfail : (s.bus.drop k).head = some .fail) :
    run 4 (Machine.afterRepeats value k s) = .next (aborted .busError
      { s with
        idx := BitVec.ofNat 32 k, bus := s.bus.drop (k + 1),
        log := .tx value .fail :: (Machine.afterRepeats value k s).log }) := by
  rw [(h.afterRepeats value k).run_transmit_fail (congrArg phaseOpcode hp) (exec_afterRepeats hp hk) hfail]
  simp [Machine.afterRepeats]

end RepeatByte

/-- Settles O38: the window opens, the loop transmits `count` times, by induction, and the window closes. -/
theorem repeatByteRuns : Obligations.RepeatByteRuns := by
  intro s value count payload later h hok
  have hopened : Runs _ (opened (.repeatByte value count) true .repeatByteS3 payload later s) := h.runs_opened
  have hloop := hopened.run_repeats rfl rfl le_rfl hok
  have hclose := (repeatByte_closesWindow value count).run_closes (hopened.afterRepeats value count.toNat) rfl
    (by simp [afterRepeats])
  rw [show count.toNat + 6 = 3 + (count.toNat + 3) by omega,
    run_add 3 _ _ _ ((repeatByte_opensWindow value count).run_opens h), run_add _ 3 _ _ hloop, hclose]
  simp [afterRepeats, opened, ended, respond, writeCS, goto, emit, State.trace]

/-- Settles O39: the loop transmits `k` times, by induction, and the next transfer raises. -/
theorem repeatByteFails : Obligations.RepeatByteFails := by
  intro s value count payload later k h hk ⟨hok, hfail⟩
  have hopened : Runs _ (opened (.repeatByte value count) true .repeatByteS3 payload later s) := h.runs_opened
  have hloop := hopened.run_repeats rfl rfl hk.le hok
  rw [show k + 7 = 3 + (k + 4) by omega, run_add 3 _ _ _ ((repeatByte_opensWindow value count).run_opens h),
    run_add _ 4 _ _ hloop, hopened.run_repeat_failure rfl hk hfail]
  simp [afterRepeats, opened, ended, aborted, State.trace]

/-! ### Two operations in order (R122) -/

/-- Settles O46: the whole `sendCommand`, then the whole `sendData` it leaves presented. -/
theorem twoOperationsTwoFrames : Obligations.TwoOperationsTwoFrames := by
  intro s x a b c pay later hp hr hok hreq
  obtain ⟨hcommand, -⟩ := sendCommandRuns s x pay _ ⟨hp, hr, hreq⟩
  rw [run_add 6 12 _ _ (hcommand hok.head)]
  refine ⟨_, sendDataRuns _ 3 [a, b, c] later ⟨rfl, hr, rfl⟩ rfl hok.tail, rfl, rfl, rfl, rfl, rfl, ?_⟩
  simp [ended, State.trace, dataEvents, statusCode]

/-! ### `reset` as a whole (R115, R212) -/

section Reset
variable {low after : Word32} {s : State}

theorem Runs.run_delay_completed {i : Instr} {ms : Word32} {next : Phase} (h : Runs i s)
    (hp : phaseOpcode s.ph = some i.opcode) (he : exec i s = .next (delay ms next s)) (hd : s.dly.head = .completed)
    (n : Nat) : run (n + 1) s = run n (goto next (emit (.dly ms) { s with dly := s.dly.tail })) :=
  h.run_succ_eq hp (exec_delay_completed he hd) n

/-- `RST` low, a delay, high: S1 to S3. -/
def pulsed (low : Word32) (s : State) : State :=
  { s with
    ph := .resetS4, rst := true, st := statusCode .ok, res := 0, dly := s.dly.tail,
    log := .lineRST true :: .dly low :: .lineRST false :: s.log }

theorem Runs.run_pulse (h : Runs (.reset low after) s) (hp : s.ph = .resetS1) (hd : s.dly.head = .completed) :
    run 3 s = .next (pulsed low s) := by
  have hS2 : Runs (.reset low after) (goto .resetS2 (writeRST false (startOperation s))) := ⟨h.running, h.latched⟩
  have hS3 : Runs (.reset low after) (goto .resetS3 (emit (.dly low)
      { goto .resetS2 (writeRST false (startOperation s)) with dly := s.dly.tail })) := ⟨h.running, h.latched⟩
  rw [h.run_succ_eq (congrArg phaseOpcode hp) (exec_resetS1 hp), hS2.run_delay_completed rfl (exec_resetS2 rfl) hd]
  exact hS3.run_succ_eq rfl (exec_resetS3 rfl) 0

/-- S4 and S5. -/
theorem Runs.run_reset_ends (h : Runs (.reset low after) s) (hp : s.ph = .resetS4) (hd : s.dly.head = .completed) :
    run 2 s = .next (respond (statusCode .ok) 0 (emit (.dly after) { s with dly := s.dly.tail })) := by
  have hS5 : Runs (.reset low after) (goto .resetS5 (emit (.dly after) { s with dly := s.dly.tail })) :=
    ⟨h.running, h.latched⟩
  rw [h.run_delay_completed (congrArg phaseOpcode hp) (exec_resetS4 hp) hd]
  exact hS5.run_succ_eq rfl (exec_resetS5 rfl) 0

end Reset

/-- Settles O40: the acceptance, the pulse with its delay, and the delay after it. -/
theorem resetRuns : Obligations.ResetRuns := by
  intro s low after payload later h hlow hafter
  have hpulsed : Runs (.reset low after)
      (pulsed low (acceptWord (encode (.reset low after)) (firstPhase (.reset low after)) s)) :=
    ⟨h.running, h.runs_accepted.latched⟩
  rw [run_step 5 s _ h.step_eq, run_add 3 2 _ _ (h.runs_accepted.run_pulse rfl hlow),
    hpulsed.run_reset_ends rfl hafter]
  simp [pulsed, ended, acceptWord, presentedPayload, h.request, respond, goto, emit, State.trace, Draws.tail_eq_drop]

/-! ### `waitUntilIdle` as a whole (R116, R120, R183, R224) -/

/-- The first sample is yet to be taken. -/
def waiting (p : Bool) (s : State) : State :=
  goto .waitUntilIdleS2 (setPolls 0 (startOperation (acceptWord (encode (.waitUntilIdle p)) .waitUntilIdleS1 s)))

/-- `NPOLL` after `n` busy samples: saturated (R28). -/
def pollsAfter (n : Nat) : Word32 := BitVec.ofNat 32 (min n (2 ^ 32 - 1))

/-- A state at S2 with `NPOLL` 0, after `n` samples that read busy. -/
def afterPolls (n : Nat) (s : State) : State :=
  { s with
    npoll := pollsAfter n, busy := s.busy.drop n, log := (pollEvents s.busy n).reverse ++ s.log }

section Wait
variable {s : State} {p : Bool} {n : Nat} {payload : List Byte} {later : List Request}

theorem Presents.runs_waiting (h : Presents s (.waitUntilIdle p) payload later) :
    Runs (.waitUntilIdle p) (waiting p s) := ⟨h.running, h.runs_accepted.latched⟩

/-- The acceptance and S1. -/
theorem Presents.run_waiting (h : Presents s (.waitUntilIdle p) payload later) (k : Nat) :
    run (k + 2) s = run k (waiting p s) := h.run_first (exec_waitUntilIdleS1 rfl) k

theorem afterPolls_zero (h : s.npoll = 0) : afterPolls 0 s = s := by
  cases s
  simp_all [afterPolls, pollsAfter, pollEvents]

theorem Runs.afterPolls {i : Instr} (h : Runs i s) (n : Nat) : Runs i (afterPolls n s) := ⟨h.running, h.latched⟩

theorem toNat_pollsAfter (n : Nat) : (pollsAfter n).toNat = min n (2 ^ 32 - 1) := by
  rw [pollsAfter, BitVec.toNat_ofNat, Nat.mod_eq_of_lt (by omega)]

theorem pollCount_pollsAfter (n : Nat) : pollCount (pollsAfter n) = pollsAfter (n + 1) := by
  refine BitVec.eq_of_toNat_eq ?_
  rw [toNat_pollCount, toNat_pollsAfter, toNat_pollsAfter]
  omega

/-- A word's number of busy samples is counted exactly. -/
theorem pollsAfter_eq_of_toNat {v : Word32} (h : v.toNat = n) : pollsAfter n = v := by
  refine BitVec.eq_of_toNat_eq ?_
  rw [toNat_pollsAfter]
  omega

theorem pollEvents_succ (busy : Draws Level) (n : Nat) :
    pollEvents busy (n + 1) = pollEvents busy n ++ [.smp (busy.drop n).head] := by
  simp [pollEvents, List.range_succ]

/-- One more busy sample, whatever follows from the count. -/
theorem sampled_afterPolls (n : Nat) (s : State) :
    setPolls (pollCount (afterPolls n s).npoll) (sampleBusy (afterPolls n s)) = afterPolls (n + 1) s := by
  simp [afterPolls, pollCount_pollsAfter, pollEvents_succ, setPolls, sampleBusy, emit]

/-- Below a limit, or with none, a count of busy samples does not time out. -/
theorem limitReached_pollsAfter {limit : Word32} (h : limit = 0 ∨ n < limit.toNat) :
    limitReached limit (pollsAfter n) = false := by
  rw [Bool.eq_false_iff, ne_eq, limitReached_eq_true_iff]
  rintro ⟨hne, rfl⟩
  rw [toNat_pollsAfter] at h
  exact h.elim hne (by omega)

/-- `n` busy samples that do not reach the limit, by induction on `n` (R116). -/
theorem Runs.run_polls (h : Runs (.waitUntilIdle p) s) (hp : s.ph = .waitUntilIdleS2) (hz : s.npoll = 0)
    (hbusy : allBusy p s.busy n) (hlimit : s.waitLimit = 0 ∨ n < s.waitLimit.toNat) :
    run n s = .next (Machine.afterPolls n s) := by
  induction n with
  | zero => rw [afterPolls_zero hz, run_zero]
  | succ n ih =>
    have hcounts : limitReached s.waitLimit (pollCount (Machine.afterPolls n s).npoll) = false :=
      (pollCount_pollsAfter n).symm ▸ limitReached_pollsAfter hlimit
    rw [run_add n 1 _ _ (ih (fun k hk => hbusy k (by omega)) (hlimit.imp_right (by omega))),
      (h.afterPolls n).run_succ_eq (congrArg phaseOpcode hp)
        (exec_waitUntilIdleS2_counts hp (hbusy n n.lt_succ_self) hcounts), sampled_afterPolls, run_zero]

/-- An idle sample and S3. -/
theorem Runs.run_idleSample (h : Runs (.waitUntilIdle p) s) (hp : s.ph = .waitUntilIdleS2)
    (hidle : busyState p s.busy.head = false) :
    run 2 s = .next (respond (statusCode .ok) 0 (sampleBusy s)) := by
  have hS3 : Runs (.waitUntilIdle p) (goto .waitUntilIdleS3 (sampleBusy s)) := ⟨h.running, h.latched⟩
  rw [h.run_succ_eq (congrArg phaseOpcode hp) (exec_waitUntilIdleS2_idle hp hidle)]
  exact hS3.run_succ_eq rfl (exec_waitUntilIdleS3 rfl) 0

/-- After `n` busy samples, one more that reaches the limit, and the abort sequence (R183, R187). -/
theorem Runs.run_timeout (h : Runs (.waitUntilIdle p) s) (hp : s.ph = .waitUntilIdleS2)
    (hbusy : busyState p (s.busy.drop n).head = true) (hne : s.waitLimit ≠ 0) (hlimit : s.waitLimit.toNat = n + 1) :
    run 4 (Machine.afterPolls n s) = .next (aborted .timeout (Machine.afterPolls (n + 1) s)) := by
  have hreached : limitReached s.waitLimit (pollCount (Machine.afterPolls n s).npoll) = true :=
    (limitReached_eq_true_iff ..).mpr ⟨hne, (pollCount_pollsAfter n).trans (pollsAfter_eq_of_toNat hlimit)⟩
  rw [(h.afterPolls n).run_succ_eq (congrArg phaseOpcode hp)
    (exec_waitUntilIdleS2_timesOut hp hbusy hreached), sampled_afterPolls]
  exact run_abort h.running rfl

end Wait

/-- Settles O41: `n` busy samples, by induction, then the idle one. -/
theorem waitAnswersAtFirstIdle : Obligations.WaitAnswersAtFirstIdle := by
  intro s p payload later n h hbusy hidle hlimit
  rw [h.run_waiting (n + 2), run_add n 2 _ _ (h.runs_waiting.run_polls rfl rfl hbusy hlimit),
    (h.runs_waiting.afterPolls n).run_idleSample rfl hidle]
  simp [afterPolls, pollsAfter, waiting, ended, acceptWord, presentedPayload, h.request, pollEvents_succ, respond,
    sampleBusy, setPolls, startOperation, goto, emit, State.trace]

/-- Settles O42: all busy samples but the last, by induction, then the one that reaches the limit. -/
theorem waitTimesOut : Obligations.WaitTimesOut := by
  intro s p payload later h hc hne hbusy
  obtain ⟨n, hn⟩ : ∃ n, s.waitLimit.toNat = n + 1 := Nat.exists_eq_succ_of_ne_zero (by bv_omega)
  rw [hn] at hbusy ⊢
  have hpolls := h.runs_waiting.run_polls (n := n) rfl rfl (fun k hk => hbusy k (by omega)) (.inr (hn ▸ n.lt_succ_self))
  rw [show n + 1 + 5 = n + 4 + 2 by omega, h.run_waiting (n + 4), run_add n 4 _ _ hpolls,
    h.runs_waiting.run_timeout rfl (hbusy n n.lt_succ_self) hne hn]
  simp [afterPolls, waiting, aborted, ended, acceptWord, presentedPayload, h.request, hc,
    pollsAfter_eq_of_toNat hn, setPolls, startOperation, goto, emit, State.trace]

/-- Settles O43: after any number of busy samples the operation is at S2 with nothing answered. -/
theorem unboundedWaitHangs : Obligations.UnboundedWaitHangs := by
  intro s p payload later h hlimit hbusy n
  refine ⟨afterPolls n (waiting p s), ?_, rfl, ?_, ?_⟩
  · rw [h.run_waiting n, h.runs_waiting.run_polls rfl rfl (hbusy n) (.inl hlimit)]
  · simp [afterPolls, waiting, h.request]
  · simp [afterPolls, waiting, State.trace]

/-! ### The lines at a response and inside a select window (R110, R113, R118, R187) -/

/-- The phases in which a framing operation writes `DC` (R111 to R114). -/
def levelWriters : List Phase :=
  [.sendCommandS1, .sendDataS1, .sendCommandWithDataS1, .sendCommandWithDataS4, .repeatByteS1]

/-- The phases in which a framing operation writes `CSEL` (R111 to R114). -/
def selectWriters : List Phase :=
  [.sendCommandS2, .sendCommandS4, .sendDataS2, .sendDataS4, .sendCommandWithDataS2, .sendCommandWithDataS6,
    .repeatByteS2, .repeatByteS4]

section Lines
variable {i : Instr} {s t : State} {status : StatusBits} {result : ResultWord}

/-- A micro-step that answers returns to `IDLE` and leaves `DC`. -/
theorem AbortMoves.ends_of_newestIsRsp (h : AbortMoves s t) (hrsp : NewestIsRsp s t status result) :
    t.ph = .idle ∧ t.dc = s.dc := by
  cases h with
  | a3 => exact ⟨rfl, rfl⟩
  | _ => simp [NewestIsRsp] at hrsp

theorem Moves.ends_of_newestIsRsp (h : Moves i s t) (hrsp : NewestIsRsp s t status result) :
    t.ph = .idle ∧ t.dc = s.dc := by
  cases h with
  | abort _ _ _ ha => exact ha.ends_of_newestIsRsp hrsp
  | sendCommandS3 _ _ _ _ htx | sendDataS3Tx _ _ _ _ _ htx | withDataS3 _ _ _ _ _ htx | withDataS5Tx _ _ _ _ _ _ htx
  | repeatByteS3 _ _ _ _ _ _ htx =>
    exact absurd hrsp (htx.not_newestIsRsp fun _ => rfl)
  | sendCommandS5 | sendDataS5 | withDataS7 | repeatByteS5 | resetS5 | waitS3 | windowS2 | counterS2 | expandS2 =>
    exact ⟨rfl, rfl⟩
  | _ => simp [NewestIsRsp] at hrsp

theorem StepMoves.ends_of_newestIsRsp (h : StepMoves s t) (hrsp : NewestIsRsp s t status result) :
    t.ph = .idle ∧ t.dc = s.dc := by
  cases h with
  | waits | acceptsReserved => simp [NewestIsRsp] at hrsp
  | accepts _ _ _ _ _ _ _ hmove | operation _ _ _ _ hmove => exact hmove.ends_of_newestIsRsp hrsp
  | aborts _ ha => exact ha.ends_of_newestIsRsp hrsp

/-- `DC` is written by the framing operations only, each in phases of its own. -/
theorem Moves.dc_eq (h : Moves i s t) (hw : isFraming i = true → s.ph ∉ levelWriters) : t.dc = s.dc := by
  cases h with
  | abort _ _ _ ha => exact ha.samePorts.dc
  | sendCommandS3 _ _ _ _ htx | sendDataS3Tx _ _ _ _ _ htx | withDataS3 _ _ _ _ _ htx | withDataS5Tx _ _ _ _ _ _ htx
  | repeatByteS3 _ _ _ _ _ _ htx => cases htx <;> rfl
  | sendCommandS1 _ _ hp | sendDataS1 _ _ hp | withDataS1 _ _ _ hp | withDataS4 _ _ _ hp | repeatByteS1 _ _ _ hp =>
    exact absurd (by simp [hp, levelWriters]) (hw rfl)
  | _ => rfl

theorem StepMoves.dc_eq (h : StepMoves s t) (hw : s.ph ∉ levelWriters) : t.dc = s.dc := by
  cases h with
  | waits | acceptsReserved => rfl
  | accepts _ _ _ _ _ _ _ hmove | operation _ _ _ _ hmove => exact hmove.dc_eq fun _ => hw
  | aborts _ ha => exact ha.samePorts.dc

/-- Of the phases that write `DC`, one lies inside a select window (R113). -/
theorem eq_of_selectedIn_levelWriters {p : Phase} (hw : p ∈ levelWriters) {st : StatusBits}
    (hsel : selectedIn p st = true) : p = .sendCommandWithDataS4 := by
  simp only [levelWriters, List.mem_cons, List.not_mem_nil, or_false] at hw
  rcases hw with rfl | rfl | rfl | rfl | rfl
  case inr.inr.inr.inl => rfl
  all_goals cases hsel

end Lines

/-- Settles O17: a response returns to `IDLE`, where the invariant fixes `CSEL` and `RST`. -/
theorem responseLeavesBusDeselected : Obligations.ResponseLeavesBusDeselected := by
  intro s t status result hs h htrace
  have hrsp : NewestIsRsp s t status result := by simpa [State.trace, NewestIsRsp] using congrArg List.reverse htrace
  have ht : Consistent t := stepKeepsInvariant s t hs h
  obtain ⟨hp, hdc⟩ : t.ph = .idle ∧ t.dc = s.dc := by
    rcases stepMoves_of_step s t h with ⟨levels, -, rfl⟩ | ⟨-, hmove⟩
    · simp [NewestIsRsp] at hrsp
    · exact hmove.ends_of_newestIsRsp hrsp
  exact ⟨by rw [ht.select, hp]; rfl, by rw [ht.reset, hp]; rfl, hp, hdc⟩

/-- Settles O19: of the phases that write `DC` only S4 of `sendCommandWithData` is selected, and there `DC` is 0. -/
theorem frameLevelStable : Obligations.FrameLevelStable := by
  intro s t hs h hsel htsel hdc
  have hwrites : s.ph ∈ levelWriters := by
    rcases stepMoves_of_step s t h with ⟨levels, -, rfl⟩ | ⟨-, hmove⟩
    · cases htsel
    · exact not_not.mp (mt hmove.dc_eq hdc)
  have hp : s.ph = .sendCommandWithDataS4 := eq_of_selectedIn_levelWriters hwrites (hs.select.symm.trans hsel)
  have hlow : s.dc = false := hs.level false (by rw [hp]; rfl)
  exact ⟨hp, hlow, by simpa [hlow] using hdc⟩

/-! ### What a micro-step leaves unchanged (R110 to R118, R187, R212) -/

/-- The phases in which an operation writes `IDX` (R27). -/
def IndexWriter (p : Phase) : Prop :=
  p ∈ [.sendDataS2, .sendCommandWithDataS2, .repeatByteS2, .repeatByteS3] ∨
    ∃ byte, p = .sendDataS3Tx byte ∨ p = .sendCommandWithDataS5Tx byte

/-- The phases in which an operation hands a byte to the bus (R34). -/
def BusWriter (p : Phase) : Prop :=
  p ∈ [.sendCommandS3, .sendCommandWithDataS3, .repeatByteS3] ∨
    ∃ byte, p = .sendDataS3Tx byte ∨ p = .sendCommandWithDataS5Tx byte

section Frames
variable {i : Instr} {s t : State}

/-- No micro-step writes the inputs `WAIT_LIMIT` and `hrst`. -/
theorem Moves.hrst_eq (h : Moves i s t) : t.hrst = s.hrst := by
  cases h with
  | abort _ _ _ ha => exact ha.samePorts.hrst
  | sendCommandS3 _ _ _ _ htx | sendDataS3Tx _ _ _ _ _ htx | withDataS3 _ _ _ _ _ htx | withDataS5Tx _ _ _ _ _ _ htx
  | repeatByteS3 _ _ _ _ _ _ htx => cases htx <;> rfl
  | _ => rfl

/-- The latches and the request ports change at acceptance only (R26, R30). -/
theorem Moves.request_eq (h : Moves i s t) (hi : s.ph ≠ .idle) :
    t.opr = s.opr ∧ t.a = s.a ∧ t.b = s.b ∧ t.req = s.req ∧ t.pay = s.pay := by
  cases h with
  | accept _ _ hp => exact absurd hp hi
  | abort _ _ _ ha => exact ha.request_eq
  | sendCommandS3 _ _ _ _ htx | sendDataS3Tx _ _ _ _ _ htx | withDataS3 _ _ _ _ _ htx | withDataS5Tx _ _ _ _ _ _ htx
  | repeatByteS3 _ _ _ _ _ _ htx => cases htx <;> exact ⟨rfl, rfl, rfl, rfl, rfl⟩
  | _ => exact ⟨rfl, rfl, rfl, rfl, rfl⟩

/-- `CSEL` is written by the framing operations in phases of their own, and by A2 where it is asserted. -/
theorem Moves.csel_eq (h : Moves i s t) (hw : isFraming i = true → s.ph ∉ selectWriters)
    (hA2 : s.ph = .abortA2 → s.csel = false) : t.csel = s.csel := by
  cases h with
  | abort _ _ _ ha => exact ha.csel_eq hA2
  | sendCommandS3 _ _ _ _ htx | sendDataS3Tx _ _ _ _ _ htx | withDataS3 _ _ _ _ _ htx | withDataS5Tx _ _ _ _ _ _ htx
  | repeatByteS3 _ _ _ _ _ _ htx => cases htx <;> rfl
  | sendCommandS2 _ _ hp | sendCommandS4 _ _ hp | sendDataS2 _ _ hp | sendDataS4 _ _ hp | withDataS2 _ _ _ hp
  | withDataS6 _ _ _ hp | repeatByteS2 _ _ _ hp | repeatByteS4 _ _ _ hp =>
    exact absurd (by simp [hp, selectWriters]) (hw rfl)
  | _ => rfl

/-- `RST` is written by S1 and S3 of `reset` only. -/
theorem Moves.rst_eq (h : Moves i s t) (hw : ∀ low after, i = .reset low after → s.ph ∉ [.resetS1, .resetS3]) :
    t.rst = s.rst := by
  cases h with
  | abort _ _ _ ha => exact ha.samePorts.rst
  | sendCommandS3 _ _ _ _ htx | sendDataS3Tx _ _ _ _ _ htx | withDataS3 _ _ _ _ _ htx | withDataS5Tx _ _ _ _ _ _ htx
  | repeatByteS3 _ _ _ _ _ _ htx => cases htx <;> rfl
  | resetS1 _ _ _ hp | resetS3 _ _ _ hp => exact absurd (by simp [hp]) (hw _ _ rfl)
  | _ => rfl

/-- The delay port is used by S2 and S4 of `reset` only. -/
theorem Moves.dly_eq (h : Moves i s t) (hw : ∀ low after, i = .reset low after → s.ph ∉ [.resetS2, .resetS4]) :
    t.dly = s.dly := by
  cases h with
  | abort _ _ _ ha => exact ha.samePorts.dly
  | sendCommandS3 _ _ _ _ htx | sendDataS3Tx _ _ _ _ _ htx | withDataS3 _ _ _ _ _ htx | withDataS5Tx _ _ _ _ _ _ htx
  | repeatByteS3 _ _ _ _ _ _ htx => cases htx <;> rfl
  | resetS2 _ _ _ hp | resetS2Waits _ _ _ hp | resetS4 _ _ _ hp | resetS4Waits _ _ _ hp =>
    exact absurd (by simp [hp]) (hw _ _ rfl)
  | _ => rfl

/-- `NPOLL` is written by S1 and S2 of `waitUntilIdle` only. -/
theorem Moves.npoll_eq (h : Moves i s t)
    (hw : ∀ p, i = .waitUntilIdle p → s.ph ∉ [.waitUntilIdleS1, .waitUntilIdleS2]) : t.npoll = s.npoll := by
  cases h with
  | abort _ _ _ ha => exact ha.samePorts.npoll
  | sendCommandS3 _ _ _ _ htx | sendDataS3Tx _ _ _ _ _ htx | withDataS3 _ _ _ _ _ htx | withDataS5Tx _ _ _ _ _ _ htx
  | repeatByteS3 _ _ _ _ _ _ htx => cases htx <;> rfl
  | waitS1 _ _ hp | waitS2Busy _ _ hp | waitS2Timeout _ _ hp => exact absurd (by simp [hp]) (hw _ rfl)
  | _ => rfl

/-- The busy line is sampled by S2 of `waitUntilIdle` only. -/
theorem Moves.busy_eq (h : Moves i s t) (hw : ∀ p, i = .waitUntilIdle p → s.ph ≠ .waitUntilIdleS2) :
    t.busy = s.busy := by
  cases h with
  | abort _ _ _ ha => exact ha.samePorts.busy
  | sendCommandS3 _ _ _ _ htx | sendDataS3Tx _ _ _ _ _ htx | withDataS3 _ _ _ _ _ htx | withDataS5Tx _ _ _ _ _ _ htx
  | repeatByteS3 _ _ _ _ _ _ htx => cases htx <;> rfl
  | waitS2Idle _ _ hp | waitS2Busy _ _ hp | waitS2Timeout _ _ hp => exact absurd hp (hw _ rfl)
  | _ => rfl

/-- `IDX` is written by the operations with a byte loop only. -/
theorem Moves.idx_eq (h : Moves i s t)
    (hw : isFraming i = true → (∀ code, i ≠ .sendCommand code) → ¬ IndexWriter s.ph) :
    t.idx = s.idx := by
  cases h with
  | abort _ _ _ ha => exact ha.samePorts.idx
  | sendCommandS3 _ _ _ _ htx | withDataS3 _ _ _ _ _ htx => cases htx <;> rfl
  | sendDataS2 _ _ hp | withDataS2 _ _ _ hp | repeatByteS2 _ _ _ hp | sendDataS3Tx _ _ _ _ hp
  | withDataS5Tx _ _ _ _ _ hp | repeatByteS3 _ _ _ _ hp =>
    exact absurd (by simp [IndexWriter, hp]) (hw rfl nofun)
  | _ => rfl

/-- The bus is used by the framing operations only, where they hand it a byte. -/
theorem Moves.bus_eq (h : Moves i s t) (hw : isFraming i = true → ¬ BusWriter s.ph) : t.bus = s.bus := by
  cases h with
  | abort _ _ _ ha => exact ha.samePorts.bus
  | sendCommandS3 _ _ _ hp | sendDataS3Tx _ _ _ _ hp | withDataS3 _ _ _ _ hp | withDataS5Tx _ _ _ _ _ hp
  | repeatByteS3 _ _ _ _ hp =>
    exact absurd (by simp [BusWriter, hp]) (hw rfl)
  | _ => rfl

/-- An operation that computes no result writes the response under assembly in its first micro-step, and A1 does (R29). -/
theorem Moves.response_eq (h : Moves i s t) (hpure : isPure i = false) (hp : s.ph ≠ firstPhase i)
    (ha : ∀ e, s.ph ≠ .abortA1 e) : t.st = s.st ∧ t.res = s.res := by
  cases h with
  | abort _ _ _ habort => exact habort.response_eq ha
  | sendCommandS3 _ _ _ _ htx | sendDataS3Tx _ _ _ _ _ htx | withDataS3 _ _ _ _ _ htx | withDataS5Tx _ _ _ _ _ _ htx
  | repeatByteS3 _ _ _ _ _ _ htx => cases htx <;> exact ⟨rfl, rfl⟩
  | sendCommandS1 | sendDataS1 | withDataS1 | repeatByteS1 | resetS1 | waitS1 => contradiction
  | windowS1Invalid | windowS1 | counterS1 | expandS1 => cases hpure
  | _ => exact ⟨rfl, rfl⟩

theorem isPure_eq_false_of_isFraming (h : isFraming i = true) : isPure i = false := by
  cases i <;> simp_all [isPure, isFraming]

theorem firstPhase_mem_of_isFraming (h : isFraming i = true) :
    firstPhase i ∈ [.sendCommandS1, .sendDataS1, .sendCommandWithDataS1, .repeatByteS1] := by
  cases i <;> simp_all [isFraming, firstPhase]

end Frames

/-- Settles O47: each field by the phases in which a framing operation writes it. -/
theorem framingFrame : Obligations.FramingFrame := by
  intro i s t hf h
  have hmove := moves_of_exec i s t h
  have hreset : ∀ low after, i ≠ .reset low after := by
    rintro low after rfl
    cases hf
  have hwait : ∀ p, i ≠ .waitUntilIdle p := by
    rintro p rfl
    cases hf
  refine ⟨hmove.rst_eq fun _ _ hi => absurd hi (hreset _ _), hmove.npoll_eq fun _ hi => absurd hi (hwait _),
    hmove.busy_eq fun _ hi => absurd hi (hwait _), hmove.dly_eq fun _ _ hi => absurd hi (hreset _ _), hmove.waitLimit_eq,
    hmove.hrst_eq, hmove.request_eq, fun hp => hmove.dc_eq fun _ => hp, fun hp => ?_, fun ⟨hp, htx⟩ => ?_,
    fun code hi => hmove.idx_eq fun _ hne => absurd hi (hne code), fun ⟨hp, htx⟩ => ?_, fun ⟨hp, ha⟩ => ?_⟩
  · have ⟨hselect, hA2⟩ : s.ph ∉ selectWriters ∧ s.ph ≠ .abortA2 := by simpa [selectWriters, and_assoc] using hp
    exact hmove.csel_eq (fun _ => hselect) fun hp => absurd hp hA2
  · exact hmove.idx_eq fun _ _ hw => hw.elim hp fun ⟨byte, hbyte⟩ => hbyte.elim (htx byte).1 (htx byte).2
  · exact hmove.bus_eq fun _ hw => hw.elim hp fun ⟨byte, hbyte⟩ => hbyte.elim (htx byte).1 (htx byte).2
  · exact hmove.response_eq (isPure_eq_false_of_isFraming hf) (fun hi => hp (hi ▸ firstPhase_mem_of_isFraming hf)) ha

/-- Settles O48: each field by the phases in which the two operations write it; at A2 chip-select is released. -/
theorem resetAndWaitFrame : Obligations.ResetAndWaitFrame := by
  refine ⟨fun low after s t h => ?_, fun p s t h => ?_⟩ <;> have hmove := moves_of_exec _ s t h
  · exact ⟨hmove.dc_eq nofun, hmove.idx_eq nofun, hmove.bus_eq nofun, hmove.npoll_eq nofun, hmove.busy_eq nofun,
      hmove.waitLimit_eq, hmove.hrst_eq,
      fun hA2 => hmove.csel_eq nofun fun hp => (hA2 hp).1.csel_at_abortA2 hp (hA2 hp).2 rfl,
      fun hp => hmove.rst_eq fun _ _ _ => hp, fun hp => hmove.dly_eq fun _ _ _ => hp,
      fun ⟨hp, ha⟩ => hmove.response_eq rfl hp ha, hmove.request_eq⟩
  · exact ⟨hmove.dc_eq nofun, hmove.rst_eq nofun, hmove.idx_eq nofun, hmove.bus_eq nofun, hmove.dly_eq nofun,
      hmove.waitLimit_eq, hmove.hrst_eq,
      fun hA2 => hmove.csel_eq nofun fun hp => (hA2 hp).1.csel_at_abortA2 hp (hA2 hp).2 rfl,
      fun hp => hmove.npoll_eq fun _ _ => hp, fun hp => hmove.busy_eq fun _ _ => hp,
      fun ⟨hp, ha⟩ => hmove.response_eq rfl hp ha, hmove.request_eq⟩

end Sys2Proof.Machine
end

section
/-! Proofs of the family 41_addresswindow: the byte window against the requested columns (O50), and its bytes for an aligned
rectangle (O52). -/

namespace Sys2Proof.Machine

section Padding
variable (r : Rectangle)

/-- The start byte is a quotient by 8, and the left padding its remainder (R151, R153). -/
theorem windowXStart_mul_add_padLeft : 8 * windowXStart r + padLeft r = r.x.toNat := by
  rw [padLeft, windowXStart_eq_div, Nat.add_sub_cancel' (Nat.mul_div_le _ 8)]

theorem padLeft_eq_mod : padLeft r = r.x.toNat % 8 := by
  rw [padLeft, windowXStart_eq_div, Nat.mod_eq_sub]

/-- The right padding is what the last requested column leaves of its byte (R153). -/
theorem padRight_eq_sub_mod : padRight r = 7 - (r.x.toNat + r.width.toNat - 1) % 8 := by
  rw [padRight, windowXEnd_eq_div]
  omega

theorem last_le_windowXEnd : r.x.toNat + r.width.toNat - 1 ≤ 8 * windowXEnd r + 7 := by
  rw [windowXEnd_eq_div]
  omega

/-- The last requested column is at or right of the first, and so is its byte. -/
theorem windowXStart_le_windowXEnd (hw : 1 ≤ r.width.toNat) : windowXStart r ≤ windowXEnd r := by
  rw [windowXStart_eq_div, windowXEnd_eq_div]
  exact Nat.div_le_div_right (by omega)

/-- The window runs from `8 * xs` to `8 * xe + 7`; the requested columns and the padding on each side fill it (R153). -/
theorem byteRoundedWidth_eq (hw : 1 ≤ r.width.toNat) :
    byteRoundedWidth r = padLeft r + r.width.toNat + padRight r := by
  have hleft := windowXStart_mul_add_padLeft r
  have hright := last_le_windowXEnd r
  have horder := windowXStart_le_windowXEnd r hw
  rw [byteRoundedWidth, bytesPerRow, padRight]
  omega

end Padding

/-- Settles O50: the padding is a remainder by 8 on the left and what a remainder leaves of 7 on the right. -/
theorem windowContainsRequest : Obligations.WindowContainsRequest := by
  intro r hw
  refine ⟨?_, last_le_windowXEnd r, windowXStart_le_windowXEnd r hw, ?_, ?_, fun haligned => ?_, byteRoundedWidth_eq r hw⟩
  · exact Nat.le.intro (windowXStart_mul_add_padLeft r)
  · exact padLeft_eq_mod r ▸ Nat.le_of_lt_succ (Nat.mod_lt _ (by decide))
  · exact padRight_eq_sub_mod r ▸ Nat.sub_le 7 _
  · rw [padLeft_eq_mod, Nat.mod_eq_zero_of_dvd haligned]

/-- Settles O52: a shift right by 3 is a division by 8, exact for a multiple of 8. -/
theorem alignedWindowExact : Obligations.AlignedWindowExact := by
  intro r haligned
  refine ⟨?_, windowXStart_eq_div r, windowXEnd_eq_div r⟩
  rw [windowXStart_eq_div, Nat.mul_div_cancel' haligned]

end Sys2Proof.Machine
end

section
/-! Proofs of the family 42_bitexpander: the round trip of an expansion (O56) and the mask algorithm (O57). -/

namespace Sys2Proof.Machine

/-- Settles O56: output bits `2i` and `2i + 1` are both input bit `i`. -/
theorem expandRoundTrip : Obligations.ExpandRoundTrip := by
  intro byte i hi
  have hhalf : 2 * i / 2 = i ∧ (2 * i + 1) / 2 = i := by omega
  rw [getLsbD_expandValue byte _ (by omega), getLsbD_expandValue byte _ (by omega), hhalf.1, hhalf.2]
  exact ⟨rfl, rfl⟩

/-! ### The mask rounds (R171) -/

/-- A 16-bit value holds the byte in groups of `k` bits, each below `k` zero bits: what R171's diagram shows after the round
that spreads by `k`. -/
def InGroupsOf (k : Nat) (byte : Byte) (v : BitVec 16) : Prop :=
  ∀ j < 16, v.getLsbD j = (decide (j % (2 * k) < k) && byte.getLsbD (j / (2 * k) * k + j % (2 * k)))

/-- One round of R171: spread by `k` positions and mask. -/
def spreadRound (k : Nat) (mask v : BitVec 16) : BitVec 16 := (v ||| (v <<< k)) &&& mask

/-- A mask keeps the lower `k` bits of every `2k`. -/
def KeepsLower (k : Nat) (mask : BitVec 16) : Prop := ∀ j : Fin 16, mask.getLsbD j = decide (j % (2 * k) < k)

/-- The constants of R171 are those masks. -/
theorem keepsLower_masks : KeepsLower 4 0x0F0F#16 ∧ KeepsLower 2 0x3333#16 ∧ KeepsLower 1 0x5555#16 := by
  unfold KeepsLower
  decide

section Rounds
variable {k : Nat} {byte : Byte} {mask v : BitVec 16}

theorem expandByMasks_eq_rounds (byte : Byte) :
    let t3 := spreadRound 1 0x5555#16 (spreadRound 2 0x3333#16 (spreadRound 4 0x0F0F#16 (byte.setWidth 16)))
    expandByMasks byte = t3 ||| (t3 <<< 1) := rfl

theorem inGroupsOf_eight (byte : Byte) : InGroupsOf 8 byte (byte.setWidth 16) := by
  intro j hj
  have hposition : j / (2 * 8) * 8 + j % (2 * 8) = j ∧ j % (2 * 8) = j := by omega
  rw [BitVec.getLsbD_setWidth, hposition.1, hposition.2]
  by_cases hbyte : j < 8
  · simp [hj, hbyte]
  · simp [hbyte, BitVec.getLsbD_of_ge byte j (by omega)]

/-- Where bit `j` of a group of `k` comes from among groups of `2k`: the lower half of a group stays in place (and the bit `k`
below it, if there is one, is a zero); the upper half moves up by `k`, onto a zero. -/
theorem group_source (hk : k = 1 ∨ k = 2 ∨ k = 4) {j : Nat} (hlow : j % (2 * k) < k) :
    (j % (2 * (2 * k)) < 2 * k ∧ j / (2 * (2 * k)) * (2 * k) + j % (2 * (2 * k)) = j / (2 * k) * k + j % (2 * k) ∧
      (k ≤ j → ¬ (j - k) % (2 * (2 * k)) < 2 * k)) ∨
    (¬ j % (2 * (2 * k)) < 2 * k ∧ k ≤ j ∧ (j - k) % (2 * (2 * k)) < 2 * k ∧
      (j - k) / (2 * (2 * k)) * (2 * k) + (j - k) % (2 * (2 * k)) = j / (2 * k) * k + j % (2 * k)) := by
  rcases hk with rfl | rfl | rfl <;> omega

/-- A round halves the groups. -/
theorem InGroupsOf.halve (h : InGroupsOf (2 * k) byte v) (hk : k = 1 ∨ k = 2 ∨ k = 4) (hmask : KeepsLower k mask) :
    InGroupsOf k byte (spreadRound k mask v) := by
  intro j hj
  rw [spreadRound, BitVec.getLsbD_and, BitVec.getLsbD_or, BitVec.getLsbD_shiftLeft, hmask ⟨j, hj⟩, h j hj,
    h (j - k) (by omega)]
  by_cases hlow : j % (2 * k) < k
  · rcases group_source hk hlow with ⟨hstays, hindex, hbelow⟩ | ⟨hzero, hle, hmoves, hindex⟩
    · by_cases hle : k ≤ j
      · simp [hlow, hstays, hindex, hbelow hle]
      · simp [hlow, hstays, hindex, Nat.lt_of_not_le hle]
    · simp [hlow, hzero, hmoves, hindex, hj, Nat.not_lt.mpr hle]
  · simp [hlow]

/-- Copying each single bit into its neighbor doubles it. -/
theorem InGroupsOf.getLsbD_duplicate (h : InGroupsOf 1 byte v) {j : Nat} (hj : j < 16) :
    (v ||| (v <<< 1)).getLsbD j = byte.getLsbD (j / 2) := by
  rw [BitVec.getLsbD_or, BitVec.getLsbD_shiftLeft, h j hj, h (j - 1) (by omega)]
  rcases Nat.mod_two_eq_zero_or_one j with heven | hodd
  · by_cases hzero : j < 1
    · simp [heven, hzero]
    · have hbelow : (j - 1) % 2 = 1 := by omega
      simp [heven, hbelow]
  · have hsource : (j - 1) % 2 = 0 ∧ (j - 1) / 2 = j / 2 ∧ ¬ j < 1 := by omega
    simp [hodd, hsource, hj]

end Rounds

/-- Settles O57: the rounds leave groups of 4, 2 and 1 bits, and the duplication doubles each bit, as R170 does. -/
theorem maskAlgorithmExpands : Obligations.MaskAlgorithmExpands := by
  intro byte
  obtain ⟨hmask4, hmask2, hmask1⟩ := keepsLower_masks
  have hnibbles := (inGroupsOf_eight byte).halve (k := 4) (by decide) hmask4
  have hpairs := hnibbles.halve (k := 2) (by decide) hmask2
  have hbits := hpairs.halve (k := 1) (by decide) hmask1
  refine BitVec.eq_of_getLsbD_eq fun j hj => ?_
  rw [expandByMasks_eq_rounds, hbits.getLsbD_duplicate hj, getLsbD_expandValue byte j hj]

end Sys2Proof.Machine
end

section
/-! Proofs of the family 60_exceptions: the abort sequence (O23). -/

namespace Sys2Proof.Machine

/-- In the states that reset and steps reach, chip-select at A1 tells `BusError` from the other errors (R187). -/
theorem Consistent.csel_at_abortA1 {s : State} {e : Status} (hs : Consistent s) (hp : s.ph = .abortA1 e) :
    s.csel = true ↔ e = .busError := by
  rw [hs.select, hp]
  exact decide_eq_true_iff

/-- The end of the abort sequence, with the event of A2 as a list before the earlier events. -/
theorem aborted_eq_append (e : Status) (s : State) :
    aborted e s = { s with
      csel := false, ph := .idle, st := statusCode e, res := 0,
      log := .rsp (statusCode e) 0 :: ((if s.csel then [.lineCS false] else []) ++ s.log) } := by
  cases hc : s.csel <;> simp [aborted, hc]

/-- Settles O23: A1, A2 and A3 one after the other, and the invariant's `CSEL` at A1. -/
theorem abortSequenceResponds : Obligations.AbortSequenceResponds :=
  ⟨fun s e hp hr => (run_abort hr hp).trans (congrArg _ (aborted_eq_append e s)), fun _ _ hs hp => hs.csel_at_abortA1 hp⟩

end Sys2Proof.Machine
end

section
/-! Proofs of the family 70_reset_and_hazards: `hrst` at any micro-step (O8). -/

namespace Sys2Proof.Machine

/-- Settles O8: the step is a block reset with the level of `hrst` consumed, which sets the lines and the phase and keeps
the trace, the request port and the other inputs. -/
theorem blockResetAbandons : Obligations.BlockResetAbandons := by
  intro s levels hasserted
  refine ⟨blockReset { s with hrst := levels }, step_of_reset s levels hasserted, ?_⟩
  simp only [blockReset_csel, blockReset_dc, blockReset_rst, blockReset_ph, blockReset_log, blockReset_req,
    blockReset_waitLimit, blockReset_bus, blockReset_busy, blockReset_dly, blockReset_hrst, and_self]

end Sys2Proof.Machine
end
